-- ==== Sys2Proof/Word.lean ====
section
/-! DEFINITION. The word types of the block and the two bit scans of `00_scope.md` rule R11. -/

namespace Sys2Proof

/-- Eight bits: a register address, an 8-bit register, one byte on the bus. -/
abbrev Byte := BitVec 8

/-- Sixteen bits: a 16-bit register, the baseline, one half of a result. -/
abbrev Half := BitVec 16

/-- Thirty-two bits: one of the four words of a command, a payload word, a field value (R90, R101). -/
abbrev Word := BitVec 32

/-- The 128-bit command word `CMD[127:0]` (R90). -/
abbrev Command := BitVec 128

/-- The scan behind `ctz`: the first set bit of `m` at or above `i`, among `fuel` positions. -/
def ctzFrom (m : Word) (i : Nat) : Nat → Nat
  | 0 => i
  | fuel + 1 => if m.getLsbD i then i else ctzFrom m (i + 1) fuel

/-- R11: the position of the lowest set bit of `m`, for `m ≠ 0`.
At 0, where R11 leaves it undefined and no rule evaluates it, it answers 32. -/
def ctz (m : Word) : Nat := ctzFrom m 0 32

/-- The scan behind `bitlen`: one more than the highest set bit of `m` below position `k`, else 0. -/
def bitlenBelow (m : Word) : Nat → Nat
  | 0 => 0
  | k + 1 => if m.getLsbD k then k + 1 else bitlenBelow m k

/-- R11: 0 for `m = 0`, else one more than the position of the highest set bit of `m`. -/
def bitlen (m : Word) : Nat := bitlenBelow m 32

end Sys2Proof
end

