-- ==== Sys2Proof/Syntax.lean ====
section
/-! DEFINITION. The commands of the block, one constructor per row of `spec/opcode_table.json`
(`30_encoding.md` rules R91 to R100), and the operand shapes they carry. -/

namespace Sys2Proof

/-- The fourteen opcodes of R93, by name. -/
inductive Opcode where
  | rdfield | wrfield | init | setmode | swreset | pollrdy | rdresult | rdeco2 | rdetvoc
  | setcal | getbase | setbase | decodeerr | dumpstatus
  deriving DecidableEq, Repr

/-- The declared width of a register, the three values of `wcode` that R91 does not reserve. -/
inductive Width where
  | w8 | w16 | w32
  deriving DecidableEq, Repr

/-- The field descriptor of R94: D0's RegisterField.
`supplied` is `some o` when `osup = 1` carries the offset `o`, and `none` when the offset is derived. -/
structure RegisterField where
  addr : Byte
  width : Width
  mask : Word
  signed : Bool
  supplied : Option (BitVec 5)
  deriving DecidableEq, Repr

/-- The measurement-mode operands of R97: the mode code, and the two interrupt enables. -/
structure ModeArgs where
  mode : BitVec 3
  drdy : Bool
  thr : Bool
  deriving DecidableEq, Repr

/-- The wait and timeout operands of R98.
`immediate` is `wait = 0`; `derived` is `wait = 1, tsel = 0`; `explicit ms` is `wait = 1, tsel = 1`. -/
inductive WaitArg where
  | immediate
  | derived
  | explicit (ms : Word)
  deriving DecidableEq, Repr

/-- The five measurement modes of D0, in its order (R8 `MODE_CODE`). -/
inductive MeasurementMode where
  | idle | oneSecond | tenSecond | sixtySecond | rawFast
  deriving DecidableEq, Repr

/-- One command. The optional arguments of SETCAL are `some q` when the present bit of R99 is 1. -/
inductive Instr where
  | rdfield (f : RegisterField)
  | wrfield (f : RegisterField) (value : Word)
  | init (m : ModeArgs) (wait : Bool)
  | setmode (m : ModeArgs)
  | swreset
  | pollrdy
  | rdresult (w : WaitArg)
  | rdeco2 (w : WaitArg)
  | rdetvoc (w : WaitArg)
  | setcal (hum temp : Option Word)
  | getbase
  | setbase (base : Half)
  | decodeerr (bitmask : Byte)
  | dumpstatus
  deriving DecidableEq, Repr

/-- The opcode of a command (R93). -/
def Instr.opcode : Instr → Opcode
  | .rdfield _ => .rdfield
  | .wrfield _ _ => .wrfield
  | .init _ _ => .init
  | .setmode _ => .setmode
  | .swreset => .swreset
  | .pollrdy => .pollrdy
  | .rdresult _ => .rdresult
  | .rdeco2 _ => .rdeco2
  | .rdetvoc _ => .rdetvoc
  | .setcal _ _ => .setcal
  | .getbase => .getbase
  | .setbase _ => .setbase
  | .decodeerr _ => .decodeerr
  | .dumpstatus => .dumpstatus

/-- The number of bits of a register width (R94). -/
def Width.bits : Width → Nat
  | .w8 => 8
  | .w16 => 16
  | .w32 => 32

/-- The mask that covers a whole register of the width, `2^w − 1` (R94). -/
def Width.ones : Width → Word
  | .w8 => 0x000000FF
  | .w16 => 0x0000FFFF
  | .w32 => 0xFFFFFFFF

end Sys2Proof
end

