-- ==== Sys2Proof/Config.lean ====
section
/-! DEFINITION. The parameters of `00_scope.md` rule R8, each under its own name so that a claim can name
it, and the free values the environment supplies. -/

namespace Sys2Proof

/-- One answer of the environment to one transaction or sleep (R13, R14, R33).
A transaction reads `ok` (the transport's report), and the data it asks for: a word read of `n` bytes takes
the first `n` of `b0 … b3` in bus order (R51); a block read takes `block`, `none` being the null block (R53).
`elapsed` is the time the transaction took, or by how much a sleep overshot its lower bound (R14).
What a primitive does not ask for it does not read. -/
structure Answer where
  ok : Bool
  b0 : Byte
  b1 : Byte
  b2 : Byte
  b3 : Byte
  block : Option (List Byte)
  elapsed : Nat
  deriving DecidableEq, Repr, Inhabited

namespace Config

/-- FREE VALUE (log entry 4): the `n`-th answer of the environment where no script is given.
Nothing constrains it: "The value `v` is chosen by the environment (the sensor); the block constrains it in
no way" (R51). -/
opaque freeAnswer : Nat → Answer

/-- FREE VALUE (log entry 12): the level of the sensor's address-select pin, chosen outside the block (R84). -/
opaque addressSelectPin : Bool

/-- R8 `HW_ID_EXPECTED`. -/
def hwIdExpected : Byte := 0x81

/-- R8 `SW_RESET_MAGIC`: bytes `11 E5 72 8A` in bus order. -/
def swResetMagic : Word := 0x11E5728A

/-- R8 `SETTLE_MS`. -/
def settleMs : Nat := 2

/-- R8 `POLL_INTERVAL_MS` (OPEN in D23; must be positive). -/
def pollIntervalMs : Nat := 250

/-- R8 `MARGIN_PCT`. -/
def marginPct : Nat := 10

/-- R8 `INIT_WAIT_FACTOR` (OPEN in D19). -/
def initWaitFactor : Nat := 2

/-- R8 `PERIOD_MS`. -/
def periodMs : MeasurementMode → Option Nat
  | .idle => none
  | .oneSecond => some 1000
  | .tenSecond => some 10000
  | .sixtySecond => some 60000
  | .rawFast => some 250

/-- R8 `MODE_CODE` (log entry 9). -/
def modeCode : MeasurementMode → BitVec 3
  | .idle => 0
  | .oneSecond => 1
  | .tenSecond => 2
  | .sixtySecond => 3
  | .rawFast => 4

/-- R8 `FW_MODE_APP`: the value of STATUS bit 7 that means App.
PRESUMED in the spec itself, "from general knowledge, not in source" (G1, log entry 8). -/
def fwModeApp : Bool := true

/-- R8 `CAL_HUM_DEFAULT`: 50.0 %RH with 9 fraction bits. -/
def calHumDefault : Word := 25600

/-- R8 `CAL_TEMP_DEFAULT`: 25.0 °C with 9 fraction bits. -/
def calTempDefault : Word := 12800

/-- R8 `TEMP_FLOOR`: −25.0 °C with 9 fraction bits. -/
def tempFloorQ9 : Int := -12800

/-- R231: humidity is clamped to at most 100 %RH, with 9 fraction bits. -/
def humMaxQ9 : Int := 51200

/-- R69, R231: the sensor's temperature half is (°C + 25) × 512. -/
def tempOffsetQ9 : Int := 12800

/-- R8 `ADC_VREF`, in volts. -/
def adcVref : ℚ := 165 / 100

/-- R8 `ADC_FULL`. -/
def adcFull : ℚ := 1023

/-- R8 `BUS_ADDRESS`, R84: 0x5A, or 0x5B when the address-select pin is driven high.
DESIGN CHOICE (log entry 12): the spec gives the two values and no width and no framing (N16); the seven bits
are the model's, the narrowest type that holds both. -/
def busAddress : BitVec 7 := if addressSelectPin then 0x5B else 0x5A

end Config

end Sys2Proof
end

