-- ==== Sys2Proof/WellFormed.lean ====
section
/-! DEFINITION. Well-formedness of commands: the checks of `30_encoding.md` rule R95 that the types of
Syntax do not already make. Checks (a) and (e) of R95 and the conditional bits of R98 to R100 concern
bits that have no place in the syntax; the decoder makes them. -/

namespace Sys2Proof

/-- R95 (b): the mask is not 0. -/
def RegisterField.maskNonzero (f : RegisterField) : Bool := f.mask != 0

/-- R95 (c): `mask < 2^w`. -/
def RegisterField.maskFits (f : RegisterField) : Bool := decide (f.mask.toNat < 2 ^ f.width.bits)

/-- R95 (d): a supplied offset is `ctz(mask)`. -/
def RegisterField.offsetAgrees (f : RegisterField) : Bool :=
  match f.supplied with
  | none => true
  | some o => o.toNat == ctz f.mask

/-- R95: the descriptor is well-formed. -/
def RegisterField.wf (f : RegisterField) : Bool :=
  f.maskNonzero && f.maskFits && f.offsetAgrees

/-- A command is well-formed: its descriptor is, where it has one (R95).
Every other operand the syntax admits is encodable (R97 to R100, R106). -/
def Instr.wf : Instr → Bool
  | .rdfield f => f.wf
  | .wrfield f _ => f.wf
  | .init _ _ => true
  | .setmode _ => true
  | .swreset => true
  | .pollrdy => true
  | .rdresult _ => true
  | .rdeco2 _ => true
  | .rdetvoc _ => true
  | .setcal _ _ => true
  | .getbase => true
  | .setbase _ => true
  | .decodeerr _ => true
  | .dumpstatus => true

end Sys2Proof
end

