-- ==== Sys2Proof/Decode.lean ====
section
/-! DEFINITION. The decoder and the encoder of the 128-bit command word (`30_encoding.md`). The decoder is
total: "any 128-bit word either decodes to exactly one command of rule R93 or is illegal" (R105). -/

namespace Sys2Proof

/-- R93: the `op` byte of each opcode. -/
def Opcode.byte : Opcode → Byte
  | .rdfield => 0x01
  | .wrfield => 0x02
  | .init => 0x10
  | .setmode => 0x11
  | .swreset => 0x13
  | .pollrdy => 0x20
  | .rdresult => 0x21
  | .rdeco2 => 0x22
  | .rdetvoc => 0x23
  | .setcal => 0x30
  | .getbase => 0x31
  | .setbase => 0x32
  | .decodeerr => 0x40
  | .dumpstatus => 0x41

/-- The mnemonic of each opcode, as `spec/opcode_table.json` spells it. -/
def Opcode.mnemonic : Opcode → String
  | .rdfield => "RDFIELD"
  | .wrfield => "WRFIELD"
  | .init => "INIT"
  | .setmode => "SETMODE"
  | .swreset => "SWRESET"
  | .pollrdy => "POLLRDY"
  | .rdresult => "RDRESULT"
  | .rdeco2 => "RDECO2"
  | .rdetvoc => "RDETVOC"
  | .setcal => "SETCAL"
  | .getbase => "GETBASE"
  | .setbase => "SETBASE"
  | .decodeerr => "DECODEERR"
  | .dumpstatus => "DUMPSTATUS"

/-- All opcodes, in the table's order. -/
def Opcode.all : List Opcode :=
  [.rdfield, .wrfield, .init, .setmode, .swreset, .pollrdy, .rdresult, .rdeco2, .rdetvoc, .setcal, .getbase, .setbase, .decodeerr, .dumpstatus]

/-- R93, R105: the opcode a byte names, or none where the byte is undefined. -/
def Opcode.ofByte? (b : Byte) : Option Opcode := Opcode.all.find? fun o => o.byte == b

/-- `match` of the opcode's row of `spec/opcode_table.json`, over `CMD[127:0]`. -/
def Opcode.tableMatch : Opcode → Command
  | .rdfield => 0x01000000000000000000000000000000
  | .wrfield => 0x02000000000000000000000000000000
  | .init => 0x10000000000000000000000000000000
  | .setmode => 0x11000000000000000000000000000000
  | .swreset => 0x13000000000000000000000000000000
  | .pollrdy => 0x20000000000000000000000000000000
  | .rdresult => 0x21000000000000000000000000000000
  | .rdeco2 => 0x22000000000000000000000000000000
  | .rdetvoc => 0x23000000000000000000000000000000
  | .setcal => 0x30000000000000000000000000000000
  | .getbase => 0x31000000000000000000000000000000
  | .setbase => 0x32000000000000000000000000000000
  | .decodeerr => 0x40000000000000000000000000000000
  | .dumpstatus => 0x41000000000000000000000000000000

/-- `mask` of the opcode's row: the opcode bits and every bit the format fixes at 0 (R104). -/
def Opcode.tableMask : Opcode → Command
  | .rdfield => 0xFF00007F00000000FFFFFFFFFFFFFFFF
  | .wrfield => 0xFF00007F0000000000000000FFFFFFFF
  | .init => 0xFFFFFF81FFFFFFFFFFFFFFFFFFFFFFFF
  | .setmode => 0xFFFFFF83FFFFFFFFFFFFFFFFFFFFFFFF
  | .swreset => 0xFFFFFFFFFFFFFFFFFFFFFFFFFFFFFFFF
  | .pollrdy => 0xFFFFFFFFFFFFFFFFFFFFFFFFFFFFFFFF
  | .rdresult => 0xFFFFFFFCFFFFFFFF00000000FFFFFFFF
  | .rdeco2 => 0xFFFFFFFCFFFFFFFF00000000FFFFFFFF
  | .rdetvoc => 0xFFFFFFFCFFFFFFFF00000000FFFFFFFF
  | .setcal => 0xFFFFFFFCFFFFFFFF0000000000000000
  | .getbase => 0xFFFFFFFFFFFFFFFFFFFFFFFFFFFFFFFF
  | .setbase => 0xFFFFFFFFFFFFFFFFFFFF0000FFFFFFFF
  | .decodeerr => 0xFF00FFFFFFFFFFFFFFFFFFFFFFFFFFFF
  | .dumpstatus => 0xFFFFFFFFFFFFFFFFFFFFFFFFFFFFFFFF

/-- The formats of R92. -/
inductive Format where
  | f | fw | m | mi | r | c | b | e | z
  deriving DecidableEq, Repr

/-- R92, R93: the format of each command. -/
def Opcode.format : Opcode → Format
  | .rdfield => .f
  | .wrfield => .fw
  | .init => .mi
  | .setmode => .m
  | .swreset => .z
  | .pollrdy => .z
  | .rdresult => .r
  | .rdeco2 => .r
  | .rdetvoc => .r
  | .setcal => .c
  | .getbase => .z
  | .setbase => .b
  | .decodeerr => .e
  | .dumpstatus => .z

/-- The fields of R91: those of `W0` from bit 31 down, then `W1`, `W2`, `W3`. -/
structure CmdFields where
  op : Byte
  a8 : Byte
  wcode : BitVec 2
  sgn : BitVec 1
  osup : BitVec 1
  offset : BitVec 5
  mode : BitVec 3
  drdy : BitVec 1
  thr : BitVec 1
  b1 : BitVec 1
  b0 : BitVec 1
  w1 : Word
  w2 : Word
  w3 : Word
  deriving DecidableEq, Repr

/-- R91: the fields of a command word, with `W0 = CMD[127:96]` (R90). -/
def CmdFields.ofWord (w : Command) : CmdFields where
  op := w.extractLsb' 120 8
  a8 := w.extractLsb' 112 8
  wcode := w.extractLsb' 110 2
  sgn := w.extractLsb' 109 1
  osup := w.extractLsb' 108 1
  offset := w.extractLsb' 103 5
  mode := w.extractLsb' 100 3
  drdy := w.extractLsb' 99 1
  thr := w.extractLsb' 98 1
  b1 := w.extractLsb' 97 1
  b0 := w.extractLsb' 96 1
  w1 := w.extractLsb' 64 32
  w2 := w.extractLsb' 32 32
  w3 := w.extractLsb' 0 32

/-- R90, R91: the command word made of its fields, most significant first. -/
def CmdFields.toWord (c : CmdFields) : Command :=
  c.op ++ (c.a8 ++ (c.wcode ++ (c.sgn ++ (c.osup ++ (c.offset ++ (c.mode ++ (c.drdy ++ (c.thr ++
    (c.b1 ++ (c.b0 ++ (c.w1 ++ (c.w2 ++ c.w3))))))))))))

/-- Why the decoder refuses a word. Every one of them is answered with the status IllegalCommand (R267). -/
inductive DecodeError where
  /-- R105: the `op` byte is not in the map of R93. -/
  | undefinedOpcode (op : Byte)
  /-- R104: a bit the format does not use is set. -/
  | reservedBits
  /-- R95 (a): `wcode = 3`. -/
  | reservedWidth
  /-- R95 (e): offset bits set although `osup = 0`. -/
  | offsetNotSupplied
  /-- R95 (b), (c), (d): the descriptor breaks its invariant. -/
  | illFormedDescriptor
  /-- R98, R99: an operand word that must be 0 under the present bits is not. -/
  | conditionalBits
  deriving DecidableEq, Repr

/-- R104: the fields that carry a descriptor (R94) are all 0. -/
def CmdFields.noDescriptor (c : CmdFields) : Bool :=
  c.a8 == 0 && c.wcode == 0 && c.sgn == 0 && c.osup == 0 && c.offset == 0 && c.w1 == 0

/-- R104: the fields that carry a mode (R97) are all 0. -/
def CmdFields.noMode (c : CmdFields) : Bool := c.mode == 0 && c.drdy == 0 && c.thr == 0

/-- R92, R104: every bit the format does not use is 0.
SETBASE's `W2[31:16]` (R100) is among them. -/
def CmdFields.unusedZero (c : CmdFields) : Format → Bool
  | .f => c.noMode && c.b1 == 0 && c.b0 == 0 && c.w2 == 0 && c.w3 == 0
  | .fw => c.noMode && c.b1 == 0 && c.b0 == 0 && c.w3 == 0
  | .m => c.noDescriptor && c.b1 == 0 && c.b0 == 0 && c.w2 == 0 && c.w3 == 0
  | .mi => c.noDescriptor && c.b0 == 0 && c.w2 == 0 && c.w3 == 0
  | .r => c.noDescriptor && c.noMode && c.w3 == 0
  | .c => c.noDescriptor && c.noMode
  | .b => c.noDescriptor && c.noMode && c.b1 == 0 && c.b0 == 0 &&
      c.w2.extractLsb' 16 16 == 0 && c.w3 == 0
  | .e => c.wcode == 0 && c.sgn == 0 && c.osup == 0 && c.offset == 0 && c.w1 == 0 && c.noMode &&
      c.b1 == 0 && c.b0 == 0 && c.w2 == 0 && c.w3 == 0
  | .z => c.noDescriptor && c.noMode && c.b1 == 0 && c.b0 == 0 && c.w2 == 0 && c.w3 == 0

/-- R91: the width a `wcode` names; 3 is reserved. -/
def Width.ofCode? (wcode : BitVec 2) : Option Width :=
  if wcode = 0 then some .w8 else if wcode = 1 then some .w16 else if wcode = 2 then some .w32 else none

/-- R91: the `wcode` of a width. -/
def Width.code : Width → BitVec 2
  | .w8 => 0
  | .w16 => 1
  | .w32 => 2

/-- R94, R95: the descriptor of formats F and FW. -/
def CmdFields.descriptor (c : CmdFields) : Except DecodeError RegisterField :=
  match Width.ofCode? c.wcode with
  | none => .error .reservedWidth
  | some w =>
    if c.osup = 0 ∧ c.offset ≠ 0 then .error .offsetNotSupplied
    else
      let f : RegisterField :=
        { addr := c.a8, width := w, mask := c.w1, signed := c.sgn == 1,
          supplied := if c.osup = 1 then some c.offset else none }
      if f.wf then .ok f else .error .illFormedDescriptor

/-- R97: the operands of formats M and MI. -/
def CmdFields.modeArgs (c : CmdFields) : ModeArgs :=
  { mode := c.mode, drdy := c.drdy == 1, thr := c.thr == 1 }

/-- R98: the operands of format R. -/
def CmdFields.waitArg (c : CmdFields) : Except DecodeError WaitArg :=
  if c.b1 = 0 then
    if c.b0 = 0 ∧ c.w2 = 0 then .ok .immediate else .error .conditionalBits
  else if c.b0 = 0 then
    if c.w2 = 0 then .ok .derived else .error .conditionalBits
  else .ok (.explicit c.w2)

/-- R99: an optional operand of format C; "A word whose present bit is 0 must be 0". -/
def optionalOperand (present : BitVec 1) (w : Word) : Except DecodeError (Option Word) :=
  if present = 1 then .ok (some w) else if w = 0 then .ok none else .error .conditionalBits

/-- The command an opcode and its fields name, once the format's unused bits are known to be 0. -/
def CmdFields.operands (c : CmdFields) : Opcode → Except DecodeError Instr
  | .rdfield => c.descriptor.map .rdfield
  | .wrfield => c.descriptor.map fun f => .wrfield f c.w2
  | .init => .ok (.init c.modeArgs (c.b1 == 1))
  | .setmode => .ok (.setmode c.modeArgs)
  | .swreset => .ok .swreset
  | .pollrdy => .ok .pollrdy
  | .rdresult => c.waitArg.map .rdresult
  | .rdeco2 => c.waitArg.map .rdeco2
  | .rdetvoc => c.waitArg.map .rdetvoc
  | .setcal =>
    match optionalOperand c.b1 c.w2, optionalOperand c.b0 c.w3 with
    | .ok h, .ok t => .ok (.setcal h t)
    | .error e, _ => .error e
    | _, .error e => .error e
  | .getbase => .ok .getbase
  | .setbase => .ok (.setbase (c.w2.extractLsb' 0 16))
  | .decodeerr => .ok (.decodeerr c.a8)
  | .dumpstatus => .ok .dumpstatus

/-- The decoder on fields: opcode, then reserved bits, then the operands (R104 to R106). -/
def CmdFields.decode (c : CmdFields) : Except DecodeError Instr :=
  match Opcode.ofByte? c.op with
  | none => .error (.undefinedOpcode c.op)
  | some o => if c.unusedZero o.format then c.operands o else .error .reservedBits

/-- The decoder, total on every 128-bit word (R105). -/
def decode (w : Command) : Except DecodeError Instr := (CmdFields.ofWord w).decode

/-- A command's fields with every field 0 but the opcode (R104). -/
def CmdFields.blank (o : Opcode) : CmdFields :=
  { op := o.byte, a8 := 0, wcode := 0, sgn := 0, osup := 0, offset := 0, mode := 0, drdy := 0, thr := 0,
    b1 := 0, b0 := 0, w1 := 0, w2 := 0, w3 := 0 }

/-- R94: a descriptor laid into the fields. -/
def CmdFields.withDescriptor (c : CmdFields) (f : RegisterField) : CmdFields :=
  { c with
    a8 := f.addr, wcode := f.width.code, sgn := BitVec.ofBool f.signed,
    osup := BitVec.ofBool f.supplied.isSome, offset := f.supplied.getD 0, w1 := f.mask }

/-- R97: the mode operands laid into the fields. -/
def CmdFields.withMode (c : CmdFields) (m : ModeArgs) : CmdFields :=
  { c with mode := m.mode, drdy := BitVec.ofBool m.drdy, thr := BitVec.ofBool m.thr }

/-- R98: the wait and timeout operands laid into the fields. -/
def CmdFields.withWait (c : CmdFields) : WaitArg → CmdFields
  | .immediate => c
  | .derived => { c with b1 := 1 }
  | .explicit ms => { c with b1 := 1, b0 := 1, w2 := ms }

/-- The fields of a command (R91 to R100). -/
def Instr.fields (i : Instr) : CmdFields :=
  let c := CmdFields.blank i.opcode
  match i with
  | .rdfield f => c.withDescriptor f
  | .wrfield f v => { c.withDescriptor f with w2 := v }
  | .init m wait => { c.withMode m with b1 := BitVec.ofBool wait }
  | .setmode m => c.withMode m
  | .swreset => c
  | .pollrdy => c
  | .rdresult w => c.withWait w
  | .rdeco2 w => c.withWait w
  | .rdetvoc w => c.withWait w
  | .setcal h t =>
    { c with b1 := BitVec.ofBool h.isSome, b0 := BitVec.ofBool t.isSome, w2 := h.getD 0, w3 := t.getD 0 }
  | .getbase => c
  | .setbase b => { c with w2 := (0 : Half) ++ b }
  | .decodeerr e => { c with a8 := e }
  | .dumpstatus => c

/-- The encoder: the command word of a command (R90 to R100). -/
def encode (i : Instr) : Command := i.fields.toWord

/-- The command the decoder reads from the word `w` numbered as `spec/opcode_table.json` numbers it:
one 128-bit word, bit 0 least significant, bits at and above `nbits` zero (log entry 13). -/
def decodeTableWord (nbits w : Nat) : Option Instr :=
  match decode (BitVec.ofNat 128 (w % 2 ^ nbits)) with
  | .ok i => some i
  | .error _ => none

end Sys2Proof
end

