-- ==== Sys2Proof/Machine/State.lean ====
section
/-! DEFINITION. The state of the block (`10_state.md`), its responses (`30_encoding.md` rule R101), the
transactions it issues (`20_memory.md` rules R51 to R54), and its reset (R34, R300). -/

namespace Sys2Proof.Machine

/-- R22: the two values of `devmode`. -/
inductive DeviceMode where
  | boot | app
  deriving DecidableEq, Repr

/-- R25: the eight bytes of a result block, `b0` first on the bus. -/
structure ResultBlock where
  b0 : Byte
  b1 : Byte
  b2 : Byte
  b3 : Byte
  b4 : Byte
  b5 : Byte
  b6 : Byte
  b7 : Byte
  deriving DecidableEq, Repr

/-- Which command runs the poll loop or the fetch: INIT step 4, or one of the three result reads. -/
inductive ResultUser where
  | init | result | eco2 | etvoc
  deriving DecidableEq, Repr

/-- R30: the sequencer states.
The arguments are the transient latches of R28 that the rest of the command needs: its operands, `t0` and `T`
of the poll loop, and the bytes already read. -/
inductive Pc where
  | idle
  | rfRead (f : RegisterField)
  | wfProbe (f : RegisterField) (value : Word)
  | wfWrite (f : RegisterField) (new : Word)
  | inHwid (m : ModeArgs) (wait : Bool)
  | inStatus (m : ModeArgs) (wait : Bool)
  | inAppstart (m : ModeArgs) (wait : Bool)
  | inSettle (m : ModeArgs) (wait : Bool)
  | inRecheck (m : ModeArgs) (wait : Bool)
  | inSetmode (m : ModeArgs) (wait : Bool)
  | smWrite (m : ModeArgs)
  | srWrite
  | prRead
  | rrPoll (u : ResultUser) (t0 T : Nat)
  | rrSleep (u : ResultUser) (t0 T : Nat)
  | rrFetch (u : ResultUser)
  | scWrite (env : Word)
  | gbRead
  | sbWrite (base : Half)
  | dsStatus
  | dsBase (status : Byte)
  | dsHwid (status : Byte) (base : Half)
  deriving DecidableEq, Repr

/-- R260: the status codes; codes 11 to 255 are never produced, and have no constructor. -/
inductive Status where
  | ok | noData | timeout | transportError | invalidFieldValue | invalidMeasurementMode
  | unexpectedHardwareId | modeTransitionFailed | readFailed | notConstructed | illegalCommand
  deriving DecidableEq, Repr

/-- R101: a response: the status, the `op` echo, `info`, and the two payload words.
`Response.word` is its 96-bit form. -/
structure Response where
  status : Status
  op : Byte
  info : Half
  r1 : Word
  r2 : Word
  deriving DecidableEq, Repr

/-- R53: the outcome of a block read. -/
inductive BlockOutcome where
  | fail
  | null
  | bytes (bs : List Byte)
  deriving DecidableEq, Repr

/-- One event at the RegisterPort or the timebase, with its outcome (R13, R14).
A word read carries `none` for Fail; a write carries whether it was acknowledged. -/
inductive BusEvent where
  | memRead (addr : Byte) (width : Width) (outcome : Option Word)
  | memWrite (addr : Byte) (width : Width) (value : Word) (ok : Bool)
  | memReadBlock (addr : Byte) (n : Nat) (outcome : BlockOutcome)
  | memWriteBlock (addr : Byte) (bytes : List Byte) (ok : Bool)
  | sleep (ms : Nat)
  deriving DecidableEq, Repr

/-- R6, R280: what the host may do next: present a command word, look at the outputs, pulse the reset input.
`observe` is the host at a moment between two micro-steps: it sees the outputs as they are, and the block then
takes its next micro-step, if a command is in progress (log entry 2). -/
inductive HostInput where
  | command (w : Command)
  | observe
  | reset
  deriving DecidableEq, Repr

/-- R31: the outputs the host can observe at any time: `busy`, and the cache outputs, `some` exactly when
`cache_valid = 1`. -/
structure Outputs where
  busy : Bool
  cache : Option ResultBlock
  deriving DecidableEq, Repr

/-- R20: the state registers but for `pc`. -/
structure Regs where
  constructed : Bool
  devmode : DeviceMode
  measMode : BitVec 3
  pollTimeoutValid : Bool
  pollTimeout : Word
  cacheValid : Bool
  cacheBytes : ResultBlock
  calHum : Word
  calTemp : Word
  deriving DecidableEq, Repr

/-- The machine.
`regs` and `pc` are the registers of R20; the other fields are the block's interfaces to its three partners:
the host (`inputs`, `responses`, `observed`), the RegisterPort (`trace`, `answers`, `draws`), the timebase (`now`).
`answers` is the environment's script, first answer first; past its end the answers are the free values
`Config.freeAnswer draws` (log entry 4). -/
structure State where
  regs : Regs
  pc : Pc
  inputs : List HostInput
  responses : List Response
  observed : List Outputs
  trace : List BusEvent
  answers : List Answer
  draws : Nat
  now : Nat
  deriving DecidableEq, Repr

/-- Why the machine stops: never. "the block having no halt state" (R304), and every failure the spec names is
a response (R272), so this type has no constructor. -/
inductive Fault where
  deriving DecidableEq, Repr

/-- Why an instruction is refused without a meaning. -/
inductive Refusal where
  /-- The interface's own refusal for an instruction with no meaning yet.
  No arm of `exec` raises it: every command has its meaning. Safe. -/
  | notModelled (mnemonic : String)
  deriving DecidableEq, Repr

/-- The value the model names for `cache_bytes` at reset, where R34 says unspecified (log entry 1). -/
def ResultBlock.zero : ResultBlock := ⟨0, 0, 0, 0, 0, 0, 0, 0⟩

/-- R34: the register values after reset; `poll_timeout` and `cache_bytes` are unspecified there and hold the
values of log entry 1. -/
def Regs.reset : Regs where
  constructed := false
  devmode := .boot
  measMode := 0
  pollTimeoutValid := false
  pollTimeout := 0
  cacheValid := false
  cacheBytes := .zero
  calHum := Config.calHumDefault
  calTemp := Config.calTempDefault

/-- R34, R300: the machine right after reset; no command presented, nothing issued (log entries 3 to 5). -/
def State.reset : State where
  regs := .reset
  pc := .idle
  inputs := []
  responses := []
  observed := []
  trace := []
  answers := []
  draws := 0
  now := 0

end Sys2Proof.Machine
end

