-- ==== Sys2Proof/Machine/RegisterMap.lean ====
section
/-! DEFINITION. The sensor's register map as the block knows it (`20_memory.md` rules R64 to R75) and the
constant field table (`40_field_codec.md` rule R140). The registers' contents belong to the sensor (R29). -/

namespace Sys2Proof.Machine

namespace Reg

/-- R65. -/
def status : Byte := 0x00
/-- R66. -/
def measMode : Byte := 0x01
/-- R67. -/
def algResult : Byte := 0x02
/-- R68. -/
def rawData : Byte := 0x03
/-- R69. -/
def envData : Byte := 0x05
/-- R70. -/
def baseline : Byte := 0x11
/-- R71. -/
def hwId : Byte := 0x20
/-- R72. -/
def hwVersion : Byte := 0x21
/-- R73. -/
def fwBootVersion : Byte := 0x23
/-- R73. -/
def fwAppVersion : Byte := 0x24
/-- R75. -/
def errorId : Byte := 0xE0
/-- R74. -/
def appStart : Byte := 0xF4
/-- R74. -/
def swReset : Byte := 0xFF

end Reg

/-- R64: the Access column, which the block does not enforce (R76). -/
inductive Access where
  | r | w | rw
  deriving DecidableEq, Repr

/-- R64: one row of the register map; `bytes` is the register's width in bytes.
`readEffect` says that a read may change what later reads return (R63). -/
structure MapRow where
  label : String
  addr : Byte
  bytes : Nat
  access : Access
  readEffect : Bool
  deriving DecidableEq, Repr

/-- R64, with R63's last sentence but one for `readEffect`. -/
def registerMap : List MapRow :=
  [ ⟨"STATUS", Reg.status, 1, .r, true⟩,
    ⟨"MEAS_MODE", Reg.measMode, 1, .rw, false⟩,
    ⟨"ALG_RESULT", Reg.algResult, 8, .r, true⟩,
    ⟨"RAW_DATA", Reg.rawData, 2, .r, false⟩,
    ⟨"ENV_DATA", Reg.envData, 4, .w, false⟩,
    ⟨"BASELINE", Reg.baseline, 2, .rw, false⟩,
    ⟨"HW_ID", Reg.hwId, 1, .r, false⟩,
    ⟨"HW_VERSION", Reg.hwVersion, 1, .r, false⟩,
    ⟨"FW_BOOT_VERSION", Reg.fwBootVersion, 2, .r, false⟩,
    ⟨"FW_APP_VERSION", Reg.fwAppVersion, 2, .r, false⟩,
    ⟨"ERROR_ID", Reg.errorId, 1, .r, true⟩,
    ⟨"APP_START", Reg.appStart, 0, .w, false⟩,
    ⟨"SW_RESET", Reg.swReset, 4, .w, false⟩ ]

/-- The row of an address, or none where the map does not list it (R79). -/
def mapRow? (a : Byte) : Option MapRow := registerMap.find? fun r => r.addr == a

/-- A field of R140: unsigned, its offset derived. -/
def field (addr : Byte) (width : Width) (mask : Word) : RegisterField :=
  { addr, width, mask, signed := false, supplied := none }

/-- R140: the fields of the 8-bit registers. -/
def fieldTable8 : List (String × RegisterField) :=
  [ ("STATUS.ALL", field Reg.status .w8 0xFF),
    ("STATUS.FW_MODE", field Reg.status .w8 0x80),
    ("STATUS.APP_ERASE", field Reg.status .w8 0x40),
    ("STATUS.APP_VERIFY", field Reg.status .w8 0x20),
    ("STATUS.APP_VALID", field Reg.status .w8 0x10),
    ("STATUS.DATA_READY", field Reg.status .w8 0x08),
    ("STATUS.ERROR", field Reg.status .w8 0x01),
    ("MEAS_MODE.ALL", field Reg.measMode .w8 0xFF),
    ("MEAS_MODE.DRIVE_MODE", field Reg.measMode .w8 0x70),
    ("MEAS_MODE.INT_DATARDY", field Reg.measMode .w8 0x08),
    ("MEAS_MODE.INT_THRESH", field Reg.measMode .w8 0x04),
    ("HW_ID.ALL", field Reg.hwId .w8 0xFF),
    ("HW_VERSION.ALL", field Reg.hwVersion .w8 0xFF),
    ("HW_VERSION.PRODUCT", field Reg.hwVersion .w8 0xF0),
    ("HW_VERSION.VARIANT", field Reg.hwVersion .w8 0x0F),
    ("ERROR_ID.ALL", field Reg.errorId .w8 0xFF) ]

/-- R140: the fields of the 16-bit and 32-bit registers. -/
def fieldTableWide : List (String × RegisterField) :=
  [ ("RAW_DATA.ALL", field Reg.rawData .w16 0xFFFF),
    ("RAW_DATA.CURRENT", field Reg.rawData .w16 0xFC00),
    ("RAW_DATA.ADC", field Reg.rawData .w16 0x03FF),
    ("ENV_DATA.ALL", field Reg.envData .w32 0xFFFFFFFF),
    ("ENV_DATA.HUMIDITY", field Reg.envData .w32 0xFFFF0000),
    ("ENV_DATA.TEMPERATURE", field Reg.envData .w32 0x0000FFFF),
    ("BASELINE.ALL", field Reg.baseline .w16 0xFFFF),
    ("FW_BOOT_VERSION.ALL", field Reg.fwBootVersion .w16 0xFFFF),
    ("FW_APP_VERSION.ALL", field Reg.fwAppVersion .w16 0xFFFF),
    ("SW_RESET.ALL", field Reg.swReset .w32 0xFFFFFFFF) ]

/-- R140: the constant field table. -/
def fieldTable : List (String × RegisterField) := fieldTable8 ++ fieldTableWide

/-- R73: a firmware version as major, minor, trivial.
The bit positions are the spec's from general knowledge (G4, log entry 11). -/
structure FirmwareVersion where
  major : BitVec 4
  minor : BitVec 4
  trivial : Byte
  deriving DecidableEq, Repr

/-- R73: the packing of FW_BOOT_VERSION and FW_APP_VERSION. -/
def firmwareVersion (v : Half) : FirmwareVersion :=
  { major := v.extractLsb' 12 4, minor := v.extractLsb' 8 4, trivial := v.extractLsb' 0 8 }

end Sys2Proof.Machine
end

