-- ==== Sys2Proof/Machine/Flags.lean ====
section
/-! DEFINITION. The bits the sequencer samples, the byte it packs for MEAS_MODE, the error flags, the
decoded view of the cache, and the status codes of a response. The block has no condition codes (R32). -/

namespace Sys2Proof.Machine

/-- R22, R65: the device mode a status byte shows, bit 7 with the polarity `FW_MODE_APP` of R8. -/
def deviceModeOf (status : Byte) : DeviceMode :=
  if status.getLsbD 7 = Config.fwModeApp then .app else .boot

/-- R65: the data-ready bit of a status byte. -/
def dataReady (status : Byte) : Bool := status.getLsbD 3

/-- R167: the byte written to MEAS_MODE, `0 ‖ mode ‖ drdy ‖ thr ‖ 0 ‖ 0`. -/
def modeByte (m : ModeArgs) : Byte :=
  (0 : BitVec 1) ++ (m.mode ++ (BitVec.ofBool m.drdy ++ (BitVec.ofBool m.thr ++ (0 : BitVec 2))))

/-- R75: the six error flags. -/
inductive ErrorFlag where
  | writeInvalid | readInvalid | modeInvalid | maxResistance | heaterFault | heaterSupply
  deriving DecidableEq, Repr

/-- R75: the bit of the error byte that carries a flag (D31, log entry 10). -/
def ErrorFlag.bit : ErrorFlag → Nat
  | .writeInvalid => 7
  | .readInvalid => 6
  | .modeInvalid => 5
  | .maxResistance => 4
  | .heaterFault => 3
  | .heaterSupply => 2

/-- R243: the labels; all but MEAS-MODE-INVALID are names from general knowledge (G3). -/
def ErrorFlag.label : ErrorFlag → String
  | .writeInvalid => "WRITE-REG-INVALID"
  | .readInvalid => "READ-REG-INVALID"
  | .modeInvalid => "MEAS-MODE-INVALID"
  | .maxResistance => "MAX-RESISTANCE"
  | .heaterFault => "HEATER-FAULT"
  | .heaterSupply => "HEATER-SUPPLY"

/-- The six flags, highest bit first (R242). -/
def ErrorFlag.all : List ErrorFlag :=
  [.writeInvalid, .readInvalid, .modeInvalid, .maxResistance, .heaterFault, .heaterSupply]

/-- R242: D0's "ordered set of flag names" of an error byte, highest bit first. -/
def errorFlags (e : Byte) : List ErrorFlag := ErrorFlag.all.filter fun f => e.getLsbD f.bit

/-- R242: the flag vector `F = bitmask[7:2]` that DECODEERR returns. -/
def flagVector (e : Byte) : BitVec 6 := e.extractLsb' 2 6

/-- R260: the code of a status. -/
def Status.code : Status → Byte
  | .ok => 0
  | .noData => 1
  | .timeout => 2
  | .transportError => 3
  | .invalidFieldValue => 4
  | .invalidMeasurementMode => 5
  | .unexpectedHardwareId => 6
  | .modeTransitionFailed => 7
  | .readFailed => 8
  | .notConstructed => 9
  | .illegalCommand => 10

/-- R101: the 96-bit response word `R0 ‖ R1 ‖ R2`. -/
def Response.word (r : Response) : BitVec 96 :=
  r.status.code ++ (r.op ++ (r.info ++ (r.r1 ++ r.r2)))

/-- R26, R197: `eco2 = b[0] ‖ b[1]`, in ppm. -/
def ResultBlock.eco2 (b : ResultBlock) : Half := b.b0 ++ b.b1

/-- R26, R197: `etvoc = b[2] ‖ b[3]`, in ppb. -/
def ResultBlock.etvoc (b : ResultBlock) : Half := b.b2 ++ b.b3

/-- R26: the copy of the status byte. -/
def ResultBlock.status (b : ResultBlock) : Byte := b.b4

/-- R26: the copy of the error byte. -/
def ResultBlock.error (b : ResultBlock) : Byte := b.b5

/-- R26: the raw sample, `b[6] ‖ b[7]`. -/
def ResultBlock.raw (b : ResultBlock) : Half := b.b6 ++ b.b7

/-- R26: `raw[15:10]`. -/
def ResultBlock.current (b : ResultBlock) : BitVec 6 := b.raw.extractLsb' 10 6

/-- R26: `raw[9:0]`. -/
def ResultBlock.adc (b : ResultBlock) : BitVec 10 := b.raw.extractLsb' 0 10

/-- R198: the ADC reading in volts, an exact rational; no state or response field holds it. -/
def ResultBlock.volts (b : ResultBlock) : ℚ := b.adc.toNat * Config.adcVref / Config.adcFull

/-- R31: `busy`. -/
def State.busy (s : State) : Bool := s.pc != .idle

/-- R31: the cache outputs: the block read last, when `cache_valid = 1`.
"When `x[cache_valid] = 0` none of them has a value" (R26). -/
def State.cacheOut (s : State) : Option ResultBlock :=
  if s.regs.cacheValid then some s.regs.cacheBytes else none

/-- R31: the outputs. -/
def State.outputs (s : State) : Outputs := ⟨s.busy, s.cacheOut⟩

end Sys2Proof.Machine
end

