-- ==== Sys2Proof/Machine/Operands.lean ====
section
/-! DEFINITION. Operand assembly: field descriptors (R94), the codec's arithmetic (R131 to R134), bus byte
order (R51, R52, R58), timeouts (R164, R165, R195) and the calibration encoding (R231 to R233). -/

namespace Sys2Proof.Machine

/-- R94: the offset, supplied or derived. -/
def fieldOffset (f : RegisterField) : Nat :=
  match f.supplied with
  | some o => o.toNat
  | none => ctz f.mask

/-- R94: `valmask = mask >> off`. -/
def valmask (f : RegisterField) : Word := f.mask >>> fieldOffset f

/-- R94: the field's bit-width `n = bitlen(mask >> off)`. -/
def fieldBits (f : RegisterField) : Nat := bitlen (valmask f)

/-- R94: full-width means `mask = 2^w − 1`. -/
def fullWidth (f : RegisterField) : Bool := f.mask == f.width.ones

/-- R10: `sext_32` of a value of `n` bits: `v` if `v[n-1] = 0`, else `v + 2^32 − 2^n`. -/
def sext32 (n : Nat) (v : Word) : Word :=
  if v.getLsbD (n - 1) then BitVec.ofNat 32 (v.toNat + 2 ^ 32 - 2 ^ n) else v

/-- R131: the value of the field in the register content `raw`, before any extension. -/
def fieldValue (f : RegisterField) (raw : Word) : Word :=
  if fullWidth f then raw else (raw &&& f.mask) >>> fieldOffset f

/-- R131: the result of RDFIELD. -/
def readResult (f : RegisterField) (raw : Word) : Word :=
  if f.signed then sext32 (fieldBits f) (fieldValue f raw) else fieldValue f raw

/-- R132: the fit check, `value & ~(mask >> off) = 0` over the 32 bits of the operand. -/
def fits (f : RegisterField) (value : Word) : Bool := (value &&& ~~~(valmask f)) == 0

/-- R10: `~mask` within the declared width. -/
def siblingMask (f : RegisterField) : Word := f.width.ones &&& ~~~f.mask

/-- R133: the word a read-modify-write writes back. -/
def mergeField (f : RegisterField) (cur value : Word) : Word :=
  (cur &&& siblingMask f) ||| ((value <<< fieldOffset f) &&& f.mask)

/-- R51, R58: the value of the bytes an answer brings, first byte most significant. -/
def wordOf (a : Answer) : Width → Word
  | .w8 => a.b0.setWidth 32
  | .w16 => (a.b0 ++ a.b1).setWidth 32
  | .w32 => a.b0 ++ (a.b1 ++ (a.b2 ++ a.b3))

/-- R52, R58: the bytes of a written value in bus order, most significant first. -/
def busBytes (v : Word) : Width → List Byte
  | .w8 => [v.extractLsb' 0 8]
  | .w16 => [v.extractLsb' 8 8, v.extractLsb' 0 8]
  | .w32 => [v.extractLsb' 24 8, v.extractLsb' 16 8, v.extractLsb' 8 8, v.extractLsb' 0 8]

/-- The bytes an event drives onto the bus (R52, R54); reads and sleeps drive none. -/
def BusEvent.driven : BusEvent → List Byte
  | .memRead _ _ _ => []
  | .memWrite _ w v _ => busBytes v w
  | .memReadBlock _ _ _ => []
  | .memWriteBlock _ bs _ => bs
  | .sleep _ => []

/-- R53: the outcome of a block read of `n` bytes; never more than `n` (D26). -/
def blockOutcome (a : Answer) (n : Nat) : BlockOutcome :=
  if a.ok then
    match a.block with
    | none => .null
    | some bs => .bytes (bs.take n)
  else .fail

/-- R8 `MODE_CODE` read backwards; 5 to 7 name no mode. -/
def modeOfCode? (code : BitVec 3) : Option MeasurementMode :=
  [MeasurementMode.idle, .oneSecond, .tenSecond, .sixtySecond, .rawFast].find? fun m =>
    Config.modeCode m == code

/-- R24, R164: the derived timeout of a mode code, `ceil(PERIOD_MS × (100 + MARGIN_PCT) / 100)`, none for Idle. -/
def derivedTimeout (code : BitVec 3) : Option Nat :=
  (modeOfCode? code).bind fun m =>
    (Config.periodMs m).map fun p => (p * (100 + Config.marginPct) + 99) / 100

/-- R11: `clamp(v, lo, hi)`. -/
def clamp (v lo hi : Int) : Int := if v < lo then lo else if v > hi then hi else v

/-- R231: the humidity SETCAL sends, after clamping to [0, 100] %RH. -/
def calibrationHumidity (hum : Option Word) (r : Regs) : Int :=
  clamp ((hum.getD r.calHum).toInt) 0 Config.humMaxQ9

/-- R231: the temperature SETCAL sends, after clamping to at least −25 °C. -/
def calibrationTemperature (temp : Option Word) (r : Regs) : Int :=
  max ((temp.getD r.calTemp).toInt) Config.tempFloorQ9

/-- R231: the raw temperature half, `(°C + 25) × 512`. -/
def rawTemperature (t : Int) : Int := t + Config.tempOffsetQ9

/-- R69, R231: the word written to ENV_DATA, `(raw_hum << 16) | raw_temp`. -/
def envWord (h t : Int) : Word :=
  (BitVec.ofInt 32 h <<< 16) ||| BitVec.ofInt 32 (rawTemperature t)

end Sys2Proof.Machine
end

