-- ==== Sys2Proof/Machine/Ops.lean ====
section
/-! DEFINITION. The shared operations: ending a command with OK or with a failure (`60_exceptions.md` rules
R260 to R273), the RegisterPort primitives and sleeps (`20_memory.md` rules R51 to R57, `00_scope.md` rule
R14), and the register updates several commands share. -/

namespace Sys2Proof.Machine

/-- What `raise` records: a non-OK status of R260 with the values R262 puts in the response. -/
inductive Failure where
  | noData
  | timeout
  | transportError (wr : Bool) (addr : Byte)
  | invalidFieldValue (value : Word)
  | invalidMeasurementMode (mode : BitVec 3)
  | unexpectedHardwareId (id : Byte)
  | modeTransitionFailed (status : Byte)
  | readFailed (count : Nat)
  | notConstructed
  | illegalCommand
  deriving DecidableEq, Repr

/-- R260: the status of a failure. -/
def Failure.status : Failure → Status
  | .noData => .noData
  | .timeout => .timeout
  | .transportError _ _ => .transportError
  | .invalidFieldValue _ => .invalidFieldValue
  | .invalidMeasurementMode _ => .invalidMeasurementMode
  | .unexpectedHardwareId _ => .unexpectedHardwareId
  | .modeTransitionFailed _ => .modeTransitionFailed
  | .readFailed _ => .readFailed
  | .notConstructed => .notConstructed
  | .illegalCommand => .illegalCommand

/-- R262: `info = R0[15:0]`. -/
def Failure.info : Failure → Half
  | .noData => 0
  | .timeout => 0
  | .transportError wr addr => (0 : BitVec 7) ++ (BitVec.ofBool wr ++ addr)
  | .invalidFieldValue _ => 0
  | .invalidMeasurementMode m => m.setWidth 16
  | .unexpectedHardwareId id => id.setWidth 16
  | .modeTransitionFailed st => st.setWidth 16
  | .readFailed n => BitVec.ofNat 16 n
  | .notConstructed => 0
  | .illegalCommand => 0

/-- R262: `R1`, the offending value of InvalidFieldValue, else 0. -/
def Failure.r1 : Failure → Word
  | .noData => 0
  | .timeout => 0
  | .transportError _ _ => 0
  | .invalidFieldValue v => v
  | .invalidMeasurementMode _ => 0
  | .unexpectedHardwareId _ => 0
  | .modeTransitionFailed _ => 0
  | .readFailed _ => 0
  | .notConstructed => 0
  | .illegalCommand => 0

/-- R101, R262, R272 (c): the response of a failure, with `R2 = 0`. -/
def Failure.response (e : Failure) (op : Byte) : Response :=
  { status := e.status, op := op, info := e.info, r1 := e.r1, r2 := 0 }

/-- R101: the response of a command that completed, with payload `r1`, `r2`. -/
def okResponse (op : Byte) (r1 r2 : Word) : Response :=
  { status := .ok, op := op, info := 0, r1 := r1, r2 := r2 }

/-- The sequencer goes to state `p` (R30). -/
def State.goto (s : State) (p : Pc) : State := { s with pc := p }

/-- The registers of R20 but for `pc` take the contents `r`. -/
def State.withRegs (s : State) (r : Regs) : State := { s with regs := r }

/-- The end of a command: one response is presented and `pc <- IDLE` (R15, R30, R272 (c), (d)). -/
def State.respond (s : State) (r : Response) : State :=
  { s with pc := .idle, responses := s.responses ++ [r] }

/-- R15, R272: `raise E(info)`, the block's "trap entry".
It presents the response and returns the sequencer to IDLE; "Nothing is saved, no mode changes, no mask
changes, control goes nowhere else". Its return is the acceptance of the next command (R273). -/
def State.raise (s : State) (op : Opcode) (e : Failure) : State := s.respond (e.response op.byte)

/-- R15: `return OK(payload)`. -/
def State.returnOk (s : State) (op : Opcode) (r1 r2 : Word) : State :=
  s.respond (okResponse op.byte r1 r2)

/-- R267: the refusal of a word the decoder does not accept, with the `op` byte as presented. -/
def State.refuseIllegal (s : State) (w : Command) : State :=
  s.respond (Failure.illegalCommand.response (w.extractLsb' 120 8))

/-- The environment's next answer: the script's first, or the free value where there is no script. -/
def State.nextAnswer (s : State) : Answer := s.answers.headD (Config.freeAnswer s.draws)

/-- One event at the RegisterPort or the timebase: it is logged, the answer is used up, and time moves on by
`least` plus what the environment adds (R14, R56). -/
def State.event (s : State) (e : BusEvent) (least : Nat) : State :=
  { s with
    trace := s.trace ++ [e]
    answers := s.answers.tail
    draws := s.draws + 1
    now := s.now + least + s.nextAnswer.elapsed }

/-- R13, R51: `MemRead(addr, n)`, then `k` with the value read; on Fail it raises TransportError (R55, R263). -/
def State.memRead (s : State) (op : Opcode) (addr : Byte) (w : Width) (k : Word → State → State) : State :=
  if s.nextAnswer.ok then
    k (wordOf s.nextAnswer w) (s.event (.memRead addr w (some (wordOf s.nextAnswer w))) 0)
  else (s.event (.memRead addr w none) 0).raise op (.transportError false addr)

/-- R13, R52: `MemWrite(addr, n, v)`, then `k`; on Fail it raises TransportError. -/
def State.memWrite (s : State) (op : Opcode) (addr : Byte) (w : Width) (v : Word) (k : State → State) :
    State :=
  if s.nextAnswer.ok then k (s.event (.memWrite addr w v true) 0)
  else (s.event (.memWrite addr w v false) 0).raise op (.transportError true addr)

/-- R13, R54: `MemWriteBlock(addr, bytes)`, then `k`; on Fail it raises TransportError. -/
def State.memWriteBlock (s : State) (op : Opcode) (addr : Byte) (bs : List Byte) (k : State → State) :
    State :=
  if s.nextAnswer.ok then k (s.event (.memWriteBlock addr bs true) 0)
  else (s.event (.memWriteBlock addr bs false) 0).raise op (.transportError true addr)

/-- R14: `Sleep(d)`, at least `d` milliseconds. -/
def State.sleep (s : State) (d : Nat) : State := s.event (.sleep d) d

/-- R22: the mirror of the mode bit, from a status byte. -/
def Regs.sampleMode (r : Regs) (status : Byte) : Regs := { r with devmode := deviceModeOf status }

/-- R22: the mirror is refreshed by every status read the sequencer makes itself. -/
def State.mirrorMode (s : State) (status : Byte) : State :=
  s.withRegs (s.regs.sampleMode status)

/-- The sequencer's own status read, `MemRead(0x00, 1)` with `x[devmode] <- s[7]` (R22, R141). -/
def State.readStatus (s : State) (op : Opcode) (k : Byte → State → State) : State :=
  s.memRead op Reg.status .w8 fun v s => k (v.setWidth 8) (s.mirrorMode (v.setWidth 8))

/-- R196: eight bytes make a result block; a shorter list makes none. -/
def blockOf? : List Byte → Option ResultBlock
  | [b0, b1, b2, b3, b4, b5, b6, b7] => some ⟨b0, b1, b2, b3, b4, b5, b6, b7⟩
  | _ => none

/-- R25, R196: a filled cache, all eight bytes at once. -/
def Regs.fillCache (r : Regs) (b : ResultBlock) : Regs := { r with cacheBytes := b, cacheValid := true }

/-- R196: the fill of the cache. -/
def State.fillCache (s : State) (b : ResultBlock) : State := s.withRegs (s.regs.fillCache b)

/-- R53, R196: `Fetch()`, the single block read, then `k` with the block; a null or short block raises
ReadFailed and leaves the cache as it was. -/
def State.fetchBlock (s : State) (op : Opcode) (k : ResultBlock → State → State) : State :=
  let r := blockOutcome s.nextAnswer 8
  let t := s.event (.memReadBlock Reg.algResult 8 r) 0
  match r with
  | .fail => t.raise op (.transportError false Reg.algResult)
  | .null => t.raise op (.readFailed 0)
  | .bytes bs =>
    match blockOf? bs with
    | none => t.raise op (.readFailed bs.length)
    | some b => k b (t.fillCache b)

/-- R164: what a mode write that succeeded leaves in `meas_mode`, `poll_timeout_valid`, `poll_timeout`. -/
def Regs.withMode (r : Regs) (code : BitVec 3) : Regs :=
  match derivedTimeout code with
  | none => { r with measMode := code, pollTimeoutValid := false }
  | some t =>
    { r with measMode := code, pollTimeoutValid := true, pollTimeout := BitVec.ofNat 32 t }

/-- R164: an invalid cache. -/
def Regs.dropCache (r : Regs) : Regs := { r with cacheValid := false }

/-- R164: the cache is invalidated. -/
def State.invalidateCache (s : State) : State := s.withRegs s.regs.dropCache

/-- R164: the write of `SetModeCore`, then `k`: the mode and the timeout change only when it succeeded. -/
def State.writeMode (s : State) (op : Opcode) (m : ModeArgs) (k : State → State) : State :=
  s.memWrite op Reg.measMode .w8 ((modeByte m).setWidth 32) fun s =>
    k (s.withRegs (s.regs.withMode m.mode))

/-- R164: `SetModeCore`, then `k`: the cache is invalidated before the write is issued. -/
def State.setModeCore (s : State) (op : Opcode) (m : ModeArgs) (k : State → State) : State :=
  s.invalidateCache.writeMode op m k

/-- R21: a constructed handle. -/
def Regs.construct (r : Regs) : Regs := { r with constructed := true }

/-- R161, R21: construction has run to its end. -/
def State.construct (s : State) : State := s.withRegs s.regs.construct

/-- R161, R35: the new handle an INIT starts from: the reset values; `poll_timeout` and `cache_bytes`, which
R161 does not assign, keep their contents behind their cleared valid bits. -/
def Regs.newHandle (r : Regs) : Regs :=
  { r with
    constructed := false, devmode := .boot, measMode := 0, pollTimeoutValid := false, cacheValid := false
    calHum := Config.calHumDefault, calTemp := Config.calTempDefault }

/-- R170: the handle dropped by SWRESET; the calibration registers keep their values. -/
def Regs.dropHandle (r : Regs) : Regs :=
  { r with
    constructed := false, devmode := .boot, measMode := 0, pollTimeoutValid := false, cacheValid := false }

/-- R266: a handle command while `constructed = 0` answers NotConstructed, before any other check. -/
def State.withHandle (s : State) (op : Opcode) (k : State) : State :=
  if s.regs.constructed then k else s.raise op .notConstructed

/-- R194: the start of the poll loop, `t0 <- Now()`. -/
def State.startPoll (s : State) (u : ResultUser) (T : Nat) : State := s.goto (.rrPoll u s.now T)

/-- The host's side of the machine: what it will still do, and what it has seen. -/
def State.withHost (s : State) (inputs : List HostInput) (observed : List Outputs) : State :=
  { s with inputs := inputs, observed := observed }

/-- R280: the host goes on with `rest`. -/
def State.withInputs (s : State) (rest : List HostInput) : State := s.withHost rest s.observed

/-- R6, R31: the host sees the outputs as they are. -/
def State.observe (s : State) : State := s.withHost s.inputs (s.observed ++ [s.outputs])

/-- R300: the block's reset input: every register to its reset value, no transaction, no response.
The interfaces and the time are the partners' and keep what they hold (log entry 14). -/
def State.hostReset (s : State) : State := (s.withRegs .reset).goto .idle

end Sys2Proof.Machine
end

