-- ==== Sys2Proof/Machine/Sequencer.lean ====
section
/-! DEFINITION. The sequencer of `10_state.md` rule R30: one micro-step per state, and the run of a command
from its first state to IDLE. -/

namespace Sys2Proof.Machine

/-- The opcode under which a user of the poll loop and the fetch answers. -/
def userOpcode : ResultUser → Opcode
  | .init => .init
  | .result => .rdresult
  | .eco2 => .rdeco2
  | .etvoc => .rdetvoc

/-- `RF_READ` (R131): the one read of RDFIELD. -/
def rfRead (f : RegisterField) (s : State) : State :=
  s.memRead .rdfield f.addr f.width fun raw s => s.returnOk .rdfield (readResult f raw) 0

/-- `WF_PROBE` (R133): the probe read of a partial WRFIELD. -/
def wfProbe (f : RegisterField) (value : Word) (s : State) : State :=
  s.memRead .wrfield f.addr f.width fun cur s => s.goto (.wfWrite f (mergeField f cur value))

/-- `WF_WRITE` (R132, R133): the write of WRFIELD. -/
def wfWrite (f : RegisterField) (new : Word) (s : State) : State :=
  s.memWrite .wrfield f.addr f.width new fun s => s.returnOk .wrfield 0 0

/-- `IN_HWID` (R161 step 1, R162): the identity check. -/
def inHwid (m : ModeArgs) (wait : Bool) (s : State) : State :=
  s.memRead .init Reg.hwId .w8 fun id s =>
    if id.setWidth 8 = Config.hwIdExpected then s.goto (.inStatus m wait)
    else s.raise .init (.unexpectedHardwareId (id.setWidth 8))

/-- `IN_STATUS` (R161): the initial device mode, and the choice of step 2. -/
def inStatus (m : ModeArgs) (wait : Bool) (s : State) : State :=
  s.readStatus .init fun _ s =>
    if s.regs.devmode = .boot then s.goto (.inAppstart m wait) else s.goto (.inSetmode m wait)

/-- `IN_APPSTART` (R163): the zero-length write. -/
def inAppstart (m : ModeArgs) (wait : Bool) (s : State) : State :=
  s.memWriteBlock .init Reg.appStart [] fun s => s.goto (.inSettle m wait)

/-- `IN_SETTLE` (R163): the settle delay. -/
def inSettle (m : ModeArgs) (wait : Bool) (s : State) : State :=
  (s.sleep Config.settleMs).goto (.inRecheck m wait)

/-- `IN_RECHECK` (R163): the status re-read. -/
def inRecheck (m : ModeArgs) (wait : Bool) (s : State) : State :=
  s.readStatus .init fun st s =>
    if s.regs.devmode = .boot then s.raise .init (.modeTransitionFailed st)
    else s.goto (.inSetmode m wait)

/-- `IN_SETMODE` (R161 steps 3 and 4, R164): the mode write, and the choice of waiting.
`T` is `INIT_WAIT_FACTOR` times the derived timeout. -/
def inSetmode (m : ModeArgs) (wait : Bool) (s : State) : State :=
  s.setModeCore .init m fun s =>
    if wait && m.mode != 0 then s.startPoll .init (Config.initWaitFactor * s.regs.pollTimeout.toNat)
    else s.construct.returnOk .init 0 0

/-- `SM_WRITE` (R166): SETMODE's write; its cache was invalidated on the way here (`startSetmode`). -/
def smWrite (m : ModeArgs) (s : State) : State :=
  s.writeMode .setmode m fun s => s.returnOk .setmode 0 0

/-- `SR_WRITE` (R170): the software-reset write. -/
def srWrite (s : State) : State :=
  s.memWrite .swreset Reg.swReset .w32 Config.swResetMagic fun s => s.returnOk .swreset 0 0

/-- `PR_READ` (R191): POLLRDY's status read. -/
def prRead (s : State) : State :=
  s.readStatus .pollrdy fun st s => s.returnOk .pollrdy ((BitVec.ofBool (dataReady st)).setWidth 32) 0

/-- The end of a poll loop by its deadline (R194); in INIT step 4 the construction still stands (R161, R269). -/
def deadlinePassed (u : ResultUser) (s : State) : State :=
  match u with
  | .init => s.construct.raise .init .timeout
  | .result => s.raise .rdresult .timeout
  | .eco2 => s.raise .rdeco2 .timeout
  | .etvoc => s.raise .rdetvoc .timeout

/-- `RR_POLL` (R194): status read, then the ready test, then the deadline test. -/
def rrPoll (u : ResultUser) (t0 T : Nat) (s : State) : State :=
  s.readStatus (userOpcode u) fun st s =>
    if dataReady st then s.goto (.rrFetch u)
    else if s.now - t0 ≥ T then deadlinePassed u s
    else s.goto (.rrSleep u t0 T)

/-- `RR_SLEEP` (R194): the sleep between polls, which always runs to its end. -/
def rrSleep (u : ResultUser) (t0 T : Nat) (s : State) : State :=
  (s.sleep Config.pollIntervalMs).goto (.rrPoll u t0 T)

/-- What a user of the fetch answers with the block just read (R102, R161, R192, R200, R201). -/
def deliver (u : ResultUser) (b : ResultBlock) (s : State) : State :=
  match u with
  | .init => s.construct.returnOk .init 0 0
  | .result => s.returnOk .rdresult (b.b0 ++ (b.b1 ++ (b.b2 ++ b.b3))) (b.b4 ++ (b.b5 ++ (b.b6 ++ b.b7)))
  | .eco2 => s.returnOk .rdeco2 (b.eco2.setWidth 32) 0
  | .etvoc => s.returnOk .rdetvoc (b.etvoc.setWidth 32) 0

/-- `RR_FETCH` (R196): the block read and the cache fill. -/
def rrFetch (u : ResultUser) (s : State) : State := s.fetchBlock (userOpcode u) (deliver u)

/-- `SC_WRITE` (R231): SETCAL's packed write. -/
def scWrite (env : Word) (s : State) : State :=
  s.memWrite .setcal Reg.envData .w32 env fun s => s.returnOk .setcal 0 0

/-- `GB_READ` (R238): GETBASE's read. -/
def gbRead (s : State) : State :=
  s.memRead .getbase Reg.baseline .w16 fun v s => s.returnOk .getbase v 0

/-- `SB_WRITE` (R239): SETBASE's write. -/
def sbWrite (base : Half) (s : State) : State :=
  s.memWrite .setbase Reg.baseline .w16 (base.setWidth 32) fun s => s.returnOk .setbase 0 0

/-- `DS_STATUS` (R246): DUMPSTATUS's first read. -/
def dsStatus (s : State) : State := s.readStatus .dumpstatus fun st s => s.goto (.dsBase st)

/-- `DS_BASE` (R246): its second read. -/
def dsBase (st : Byte) (s : State) : State :=
  s.memRead .dumpstatus Reg.baseline .w16 fun v s => s.goto (.dsHwid st (v.setWidth 16))

/-- R246: `ev ‖ e`, the error byte of the cache with its valid flag, zero-extended. -/
def cachedError (r : Regs) : Word :=
  if r.cacheValid then ((1 : BitVec 1) ++ r.cacheBytes.error).setWidth 32 else 0

/-- `DS_HWID` (R246): its third read, and the answer `s ‖ id ‖ bl`. -/
def dsHwid (st : Byte) (base : Half) (s : State) : State :=
  s.memRead .dumpstatus Reg.hwId .w8 fun id s =>
    s.returnOk .dumpstatus (st ++ ((id.setWidth 8 : Byte) ++ base)) (cachedError s.regs)

/-- R30: the micro-step of the present sequencer state; at IDLE there is none. -/
def microStep (s : State) : State :=
  match s.pc with
  | .idle => s
  | .rfRead f => rfRead f s
  | .wfProbe f v => wfProbe f v s
  | .wfWrite f new => wfWrite f new s
  | .inHwid m w => inHwid m w s
  | .inStatus m w => inStatus m w s
  | .inAppstart m w => inAppstart m w s
  | .inSettle m w => inSettle m w s
  | .inRecheck m w => inRecheck m w s
  | .inSetmode m w => inSetmode m w s
  | .smWrite m => smWrite m s
  | .srWrite => srWrite s
  | .prRead => prRead s
  | .rrPoll u t0 T => rrPoll u t0 T s
  | .rrSleep u t0 T => rrSleep u t0 T s
  | .rrFetch u => rrFetch u s
  | .scWrite e => scWrite e s
  | .gbRead => gbRead s
  | .sbWrite b => sbWrite b s
  | .dsStatus => dsStatus s
  | .dsBase st => dsBase st s
  | .dsHwid st b => dsHwid st b s

/-- A bound on the micro-steps of a poll loop that polls next, with `left` milliseconds to its deadline. -/
def pollBudget (left : Nat) : Nat := 2 + 2 * left

/-- R161: `T` of INIT step 4 once the mode write has succeeded: `INIT_WAIT_FACTOR` times the derived timeout. -/
def initTimeout (m : ModeArgs) (r : Regs) : Nat :=
  Config.initWaitFactor * (r.withMode m.mode).pollTimeout.toNat

/-- How many micro-steps the command in progress can still take: each of them lowers it (R204). -/
def budget (s : State) : Nat :=
  match s.pc with
  | .idle => 0
  | .rfRead _ => 1
  | .wfProbe _ _ => 2
  | .wfWrite _ _ => 1
  | .inHwid m _ => 6 + pollBudget (initTimeout m s.regs)
  | .inStatus m _ => 5 + pollBudget (initTimeout m s.regs)
  | .inAppstart m _ => 4 + pollBudget (initTimeout m s.regs)
  | .inSettle m _ => 3 + pollBudget (initTimeout m s.regs)
  | .inRecheck m _ => 2 + pollBudget (initTimeout m s.regs)
  | .inSetmode m _ => 1 + pollBudget (initTimeout m s.regs)
  | .smWrite _ => 1
  | .srWrite => 1
  | .prRead => 1
  | .rrPoll _ t0 T => pollBudget (t0 + T - s.now)
  | .rrSleep _ t0 T => 1 + 2 * max 1 (t0 + T - s.now)
  | .rrFetch _ => 1
  | .scWrite _ => 1
  | .gbRead => 1
  | .sbWrite _ => 1
  | .dsStatus => 3
  | .dsBase _ => 2
  | .dsHwid _ _ => 1

/-- At most `fuel` micro-steps, stopping at IDLE. -/
def runMicro : Nat → State → State
  | 0, s => s
  | fuel + 1, s => if s.pc = .idle then s else runMicro fuel (microStep s)

/-- The rest of the command in progress, run to IDLE (R30: "every command ends with `pc <- IDLE` and one
response"). `budget` is enough: `complete_step` and `complete_idle` under Laws say so. -/
def State.complete (s : State) : State := runMicro (budget s) s

end Sys2Proof.Machine
end

