-- ==== Sys2Proof/Machine/Adjunct.lean ====
section
/-! DEFINITION. The meanings of the adjunct commands (`43_adjunct_calibration_diagnostics.md`): SETCAL,
GETBASE, SETBASE, DECODEERR, DUMPSTATUS.
`start…` is a command's transition out of IDLE, with the checks made there (R30); `exec…` is that transition
and the sequencer's run to the response. -/

namespace Sys2Proof.Machine

/-- R231: what SETCAL stores, the clamped values, before the write is issued. -/
def Regs.withCalibration (r : Regs) (h t : Int) : Regs :=
  { r with calHum := BitVec.ofInt 32 h, calTemp := BitVec.ofInt 32 t }

/-- R231, R233: SETCAL's last check and its store, for the clamped humidity and temperature. -/
def sendCalibration (h t : Int) (s : State) : State :=
  if rawTemperature t > 0xFFFF then
    s.raise .setcal (.invalidFieldValue (BitVec.ofInt 32 (rawTemperature t)))
  else (s.withRegs (s.regs.withCalibration h t)).goto (.scWrite (envWord h t))

/-- R231: SETCAL's checks, in the order of R271. -/
def startSetcal (hum temp : Option Word) (s : State) : State :=
  s.withHandle .setcal <|
    if s.regs.devmode = .app then
      sendCalibration (calibrationHumidity hum s.regs) (calibrationTemperature temp s.regs) s
    else s.raise .setcal .noData

/-- SETCAL (R231). -/
def execSetcal (hum temp : Option Word) (s : State) : Host.Outcome State Fault Refusal :=
  .next (startSetcal hum temp s).complete

/-- R238: GETBASE needs a handle. -/
def startGetbase (s : State) : State := s.withHandle .getbase (s.goto .gbRead)

/-- GETBASE (R238). -/
def execGetbase (s : State) : Host.Outcome State Fault Refusal :=
  .next (startGetbase s).complete

/-- R239: SETBASE needs a handle. -/
def startSetbase (base : Half) (s : State) : State := s.withHandle .setbase (s.goto (.sbWrite base))

/-- SETBASE (R239). -/
def execSetbase (base : Half) (s : State) : Host.Outcome State Fault Refusal :=
  .next (startSetbase base s).complete

/-- R242: DECODEERR answers in the transition out of IDLE and has no state of its own (R30): pure, "no I/O",
accepted in any state. -/
def startDecodeerr (bitmask : Byte) (s : State) : State :=
  s.returnOk .decodeerr ((flagVector bitmask).setWidth 32) 0

/-- DECODEERR (R242). -/
def execDecodeerr (bitmask : Byte) (s : State) : Host.Outcome State Fault Refusal :=
  .next (startDecodeerr bitmask s).complete

/-- R246: DUMPSTATUS needs a handle. -/
def startDumpstatus (s : State) : State := s.withHandle .dumpstatus (s.goto .dsStatus)

/-- DUMPSTATUS (R246). -/
def execDumpstatus (s : State) : Host.Outcome State Fault Refusal :=
  .next (startDumpstatus s).complete

end Sys2Proof.Machine
end

