-- ==== Sys2Proof/Machine/DeviceMode.lean ====
section
/-! DEFINITION. The meanings of the Device State Machine's commands (`41_device_mode.md`): INIT, SETMODE,
SWRESET.
`start…` is a command's transition out of IDLE, with the checks made there (R30); `exec…` is that transition
and the sequencer's run to the response. -/

namespace Sys2Proof.Machine

/-- R161, R166: the mode code is none of the five defined values. -/
def modeInvalid (m : ModeArgs) : Bool := decide (4 < m.mode.toNat)

/-- R161: INIT's mode check, before any state change, then the new handle and step 1. -/
def startInit (m : ModeArgs) (wait : Bool) (s : State) : State :=
  if modeInvalid m then s.raise .init (.invalidMeasurementMode m.mode)
  else (s.withRegs s.regs.newHandle).goto (.inHwid m wait)

/-- INIT (R161 to R164). -/
def execInit (m : ModeArgs) (wait : Bool) (s : State) : Host.Outcome State Fault Refusal :=
  .next (startInit m wait s).complete

/-- R166: SETMODE's checks, in the order of R271; then the cache is invalidated, before the write is issued
(R164), so that it is seen invalid while the write is outstanding (log entry 18). -/
def startSetmode (m : ModeArgs) (s : State) : State :=
  s.withHandle .setmode <|
    if modeInvalid m then s.raise .setmode (.invalidMeasurementMode m.mode) else s.invalidateCache.goto (.smWrite m)

/-- SETMODE (R166). -/
def execSetmode (m : ModeArgs) (s : State) : Host.Outcome State Fault Refusal :=
  .next (startSetmode m s).complete

/-- R170: the handle is dropped before the write is issued, whatever its outcome. -/
def startSwreset (s : State) : State := (s.withRegs s.regs.dropHandle).goto .srWrite

/-- SWRESET (R170). -/
def execSwreset (s : State) : Host.Outcome State Fault Refusal :=
  .next (startSwreset s).complete

end Sys2Proof.Machine
end

