-- ==== Sys2Proof/Machine/FieldCodec.lean ====
section
/-! DEFINITION. The meanings of the Field Codec's commands (`40_field_codec.md`): RDFIELD, WRFIELD.
`start…` is a command's transition out of IDLE, with the checks made there (R30); `exec…` is that transition
and the sequencer's run to the response. -/

namespace Sys2Proof.Machine

/-- R131: RDFIELD has no check of its own. -/
def startRdfield (f : RegisterField) (s : State) : State := s.goto (.rfRead f)

/-- RDFIELD (R131). -/
def execRdfield (f : RegisterField) (s : State) : Host.Outcome State Fault Refusal :=
  .next (startRdfield f s).complete

/-- R132: the fit check before any transaction, then the full-width or the partial path. -/
def startWrfield (f : RegisterField) (value : Word) (s : State) : State :=
  if fits f value then s.goto (if fullWidth f then .wfWrite f value else .wfProbe f value)
  else s.raise .wrfield (.invalidFieldValue value)

/-- WRFIELD (R132, R133). -/
def execWrfield (f : RegisterField) (value : Word) (s : State) : Host.Outcome State Fault Refusal :=
  .next (startWrfield f value s).complete

end Sys2Proof.Machine
end

