-- ==== Sys2Proof/Machine/ResultCache.lean ====
section
/-! DEFINITION. The meanings of the result-cache commands (`42_result_cache.md`): POLLRDY, RDRESULT, RDECO2,
RDETVOC.
`start…` is a command's transition out of IDLE, with the checks made there (R30); `exec…` is that transition
and the sequencer's run to the response. -/

namespace Sys2Proof.Machine

/-- R191: POLLRDY needs a handle and nothing else. -/
def startPollrdy (s : State) : State := s.withHandle .pollrdy (s.goto .prRead)

/-- POLLRDY (R191). -/
def execPollrdy (s : State) : Host.Outcome State Fault Refusal :=
  .next (startPollrdy s).complete

/-- R193: the preconditions of the result reads, tested on the mirrors. -/
def resultAvailable (r : Regs) : Bool := decide (r.devmode = .app) && r.measMode != 0

/-- R192: the transition out of IDLE of a result read: the handle, the preconditions, then the poll loop with
the chosen timeout (R195) or, with `wait = 0`, the fetch at once. -/
def startResult (u : ResultUser) (w : WaitArg) (s : State) : State :=
  s.withHandle (userOpcode u) <|
    if resultAvailable s.regs then
      match w with
      | .immediate => s.goto (.rrFetch u)
      | .derived => s.startPoll u s.regs.pollTimeout.toNat
      | .explicit ms => s.startPoll u ms.toNat
    else s.raise (userOpcode u) .noData

/-- R192: RDRESULT's transition out of IDLE. -/
def startRdresult (w : WaitArg) (s : State) : State := startResult .result w s

/-- RDRESULT (R192). -/
def execRdresult (w : WaitArg) (s : State) : Host.Outcome State Fault Refusal :=
  .next (startRdresult w s).complete

/-- R200: RDECO2's transition out of IDLE. -/
def startRdeco2 (w : WaitArg) (s : State) : State := startResult .eco2 w s

/-- RDECO2 (R200). -/
def execRdeco2 (w : WaitArg) (s : State) : Host.Outcome State Fault Refusal :=
  .next (startRdeco2 w s).complete

/-- R201: RDETVOC's transition out of IDLE. -/
def startRdetvoc (w : WaitArg) (s : State) : State := startResult .etvoc w s

/-- RDETVOC (R201). -/
def execRdetvoc (w : WaitArg) (s : State) : Host.Outcome State Fault Refusal :=
  .next (startRdetvoc w s).complete

end Sys2Proof.Machine
end

