-- ==== Sys2Proof/Machine/Accept.lean ====
section
/-! DEFINITION. What the machine does next: the host interface of `60_exceptions.md` rule R280, and the
acceptance of a command (`10_state.md` rule R30). -/

namespace Sys2Proof.Machine

/-- R30: "accepting it moves `pc` to the first state of that command", or, where a check made in that
transition fails and for DECODEERR, gives the response at once. -/
def State.accept (i : Instr) (s : State) : State :=
  match i with
  | .rdfield f => startRdfield f s
  | .wrfield f value => startWrfield f value s
  | .init m wait => startInit m wait s
  | .setmode m => startSetmode m s
  | .swreset => startSwreset s
  | .pollrdy => startPollrdy s
  | .rdresult w => startRdresult w s
  | .rdeco2 w => startRdeco2 w s
  | .rdetvoc w => startRdetvoc w s
  | .setcal hum temp => startSetcal hum temp s
  | .getbase => startGetbase s
  | .setbase base => startSetbase base s
  | .decodeerr bitmask => startDecodeerr bitmask s
  | .dumpstatus => startDumpstatus s

/-- What the next step is. -/
inductive NextStep where
  /-- The host pulses the reset input. -/
  | reset (s : State)
  /-- The host looks at the outputs, and the block takes one micro-step (R6, R31). -/
  | observed (s : State)
  /-- A command is in progress (`busy = 1`) and the host waits for its response (R280, log entry 3). -/
  | running (s : State)
  /-- IDLE with no command presented: the block waits (R30). -/
  | waiting (s : State)
  /-- IDLE with a word the decoder refuses. -/
  | illegal (w : Command) (s : State)
  /-- IDLE with a command, and a host that next waits for its response. -/
  | command (i : Instr) (s : State)
  /-- IDLE with a command, and a host that looks at the outputs before anything else happens. -/
  | watched (i : Instr) (s : State)
  deriving DecidableEq, Repr

/-- R280, R30, R90: a reset pulse is taken at any time, and so is a look at the outputs (R31); a command only
at `pc = IDLE`. -/
def State.nextStep (s : State) : NextStep :=
  match s.inputs with
  | .reset :: rest => .reset (s.withInputs rest)
  | .observe :: rest => .observed (s.withInputs rest)
  | [] => if s.pc = .idle then .waiting s else .running s
  | .command w :: rest =>
    if s.pc = .idle then
      match decode w with
      | .ok i =>
        if rest.head? = some .observe then .watched i (s.withInputs rest)
        else .command i (s.withInputs rest)
      | .error _ => .illegal w (s.withInputs rest)
    else .running s

/-- The host presents a command word next (R280). -/
def State.present (s : State) (w : Command) : State := s.withInputs (.command w :: s.inputs)

end Sys2Proof.Machine
end

