-- ==== Sys2Proof/Machine/Dispatch.lean ====
section
/-! DEFINITION. The one arm per command. -/

namespace Sys2Proof.Machine

/-- The meaning of a command: from its acceptance at IDLE to its response. -/
def exec (i : Instr) (s : State) : Host.Outcome State Fault Refusal :=
  match i with
  | .rdfield f => Sys2Proof.Machine.execRdfield f s
  | .wrfield f value => Sys2Proof.Machine.execWrfield f value s
  | .init m wait => Sys2Proof.Machine.execInit m wait s
  | .setmode m => Sys2Proof.Machine.execSetmode m s
  | .swreset => Sys2Proof.Machine.execSwreset s
  | .pollrdy => Sys2Proof.Machine.execPollrdy s
  | .rdresult w => Sys2Proof.Machine.execRdresult w s
  | .rdeco2 w => Sys2Proof.Machine.execRdeco2 w s
  | .rdetvoc w => Sys2Proof.Machine.execRdetvoc w s
  | .setcal hum temp => Sys2Proof.Machine.execSetcal hum temp s
  | .getbase => Sys2Proof.Machine.execGetbase s
  | .setbase base => Sys2Proof.Machine.execSetbase base s
  | .decodeerr bitmask => Sys2Proof.Machine.execDecodeerr bitmask s
  | .dumpstatus => Sys2Proof.Machine.execDumpstatus s

end Sys2Proof.Machine
end

