-- ==== Sys2Proof/Machine/Step.lean ====
section
/-! DEFINITION. One step of the machine: one host input taken, or what the block does while the host waits. -/

namespace Sys2Proof.Machine

/-- One step.
A host that waits for its response sees nothing of a command between acceptance and response, and the step is
the whole command, or the rest of it; where the host looks at the outputs (R6, R31), the step ends there: after
the acceptance, or after one micro-step (log entry 2). -/
def step (s : State) : Host.Outcome State Fault Refusal :=
  match s.nextStep with
  | .reset t => .next t.hostReset
  | .observed t => .next (microStep t.observe)
  | .running t => .next t.complete
  | .waiting t => .next t
  | .illegal w t => .next (t.refuseIllegal w)
  | .command i t => exec i t
  | .watched i t => .next (t.accept i)

/-- The state `s` with the command word `w` presented as the next host input at IDLE, so that the next step
accepts exactly it; the word is numbered as `decodeTableWord` numbers it. -/
def State.withFetchWord (s : State) (nbits w : Nat) : State :=
  { s.present (BitVec.ofNat 128 (w % 2 ^ nbits)) with pc := .idle }

end Sys2Proof.Machine
end

