-- ==== Sys2Proof/Safety.lean ====
section
/-! DEFINITION. What counts as a good state and as a careful command: the invariant the rules state between
the registers, the statuses each command may return (R274), and the host duties of `70_reset_and_hazards.md`
that a command alone shows. -/

namespace Sys2Proof.Machine

/-- R23: `meas_mode` "never holds 5, 6 or 7". -/
abbrev Regs.ModeLegal (r : Regs) : Prop := r.measMode.toNat ≤ 4

/-- R24, R195: `poll_timeout_valid` is 1 exactly for the modes that have a timeout, and `poll_timeout` is then
the derived timeout of the mode. -/
abbrev Regs.TimeoutAgrees (r : Regs) : Prop :=
  (r.pollTimeoutValid = true ↔ r.measMode ≠ 0) ∧
    (r.pollTimeoutValid = true → some r.pollTimeout.toNat = derivedTimeout r.measMode)

/-- R21, R25, R161, R170: a cached block belongs to a constructed handle. -/
abbrev Regs.CacheOwned (r : Regs) : Prop := r.cacheValid = true → r.constructed = true

/-- R231 (d), R233: the calibration registers hold values SETCAL can have sent. -/
abbrev Regs.CalibrationInRange (r : Regs) : Prop :=
  (0 ≤ r.calHum.toInt ∧ r.calHum.toInt ≤ 51200) ∧ (-12800 ≤ r.calTemp.toInt ∧ r.calTemp.toInt ≤ 52735)

/-- What holds of the registers, between commands and between the micro-steps of one. -/
abbrev Regs.Inv (r : Regs) : Prop :=
  r.ModeLegal ∧ r.TimeoutAgrees ∧ r.CacheOwned ∧ r.CalibrationInRange

/-- R21: INIT's poll loop runs before its handle is constructed, a result read's on a constructed handle. -/
def ResultUser.handleAgrees (u : ResultUser) (r : Regs) : Bool :=
  match u with
  | .init => !r.constructed
  | .result => r.constructed
  | .eco2 => r.constructed
  | .etvoc => r.constructed

/-- What the latches of a command in progress (R28) and the registers say of each other: an INIT has no handle
yet and a valid mode (R161), a SETMODE has a handle, a valid mode and an invalid cache (R164, R166), a SWRESET has
dropped the handle (R170), the other handle commands have one (R266), and a poll loop started in the past
(R14, R194). -/
def Pc.agrees (p : Pc) (r : Regs) (now : Nat) : Bool :=
  match p with
  | .idle => true
  | .rfRead _ => true
  | .wfProbe _ _ => true
  | .wfWrite _ _ => true
  | .inHwid m _ => decide (m.mode.toNat ≤ 4) && !r.constructed
  | .inStatus m _ => decide (m.mode.toNat ≤ 4) && !r.constructed
  | .inAppstart m _ => decide (m.mode.toNat ≤ 4) && !r.constructed
  | .inSettle m _ => decide (m.mode.toNat ≤ 4) && !r.constructed
  | .inRecheck m _ => decide (m.mode.toNat ≤ 4) && !r.constructed
  | .inSetmode m _ => decide (m.mode.toNat ≤ 4) && !r.constructed
  | .smWrite m => decide (m.mode.toNat ≤ 4) && (r.constructed && !r.cacheValid)
  | .srWrite => !r.constructed
  | .prRead => r.constructed
  | .rrPoll u t0 _ => u.handleAgrees r && decide (t0 ≤ now)
  | .rrSleep u t0 _ => u.handleAgrees r && decide (t0 ≤ now)
  | .rrFetch u => u.handleAgrees r
  | .scWrite _ => r.constructed
  | .gbRead => r.constructed
  | .sbWrite _ => r.constructed
  | .dsStatus => r.constructed
  | .dsBase _ => r.constructed
  | .dsHwid _ _ => r.constructed

/-- The registers agree with one another, and with the command in progress if there is one. -/
abbrev State.Inv (s : State) : Prop := s.regs.Inv ∧ s.pc.agrees s.regs s.now = true

/-- R274: the statuses a command can return. -/
def allowedStatuses : Instr → List Status
  | .rdfield _ => [.ok, .transportError]
  | .wrfield _ _ => [.ok, .invalidFieldValue, .transportError]
  | .init _ _ =>
    [.ok, .invalidMeasurementMode, .unexpectedHardwareId, .modeTransitionFailed, .transportError, .timeout,
      .readFailed]
  | .setmode _ => [.ok, .notConstructed, .invalidMeasurementMode, .transportError]
  | .swreset => [.ok, .transportError]
  | .pollrdy => [.ok, .notConstructed, .transportError]
  | .rdresult _ => [.ok, .notConstructed, .noData, .timeout, .readFailed, .transportError]
  | .rdeco2 _ => [.ok, .notConstructed, .noData, .timeout, .readFailed, .transportError]
  | .rdetvoc _ => [.ok, .notConstructed, .noData, .timeout, .readFailed, .transportError]
  | .setcal _ _ => [.ok, .notConstructed, .noData, .invalidFieldValue, .transportError]
  | .getbase => [.ok, .notConstructed, .transportError]
  | .setbase _ => [.ok, .notConstructed, .transportError]
  | .decodeerr _ => [.ok]
  | .dumpstatus => [.ok, .notConstructed, .transportError]

/-- R266: the commands on a constructed handle. -/
def needsHandle : Instr → Bool
  | .rdfield _ => false
  | .wrfield _ _ => false
  | .init _ _ => false
  | .setmode _ => true
  | .swreset => false
  | .pollrdy => true
  | .rdresult _ => true
  | .rdeco2 _ => true
  | .rdetvoc _ => true
  | .setcal _ _ => true
  | .getbase => true
  | .setbase _ => true
  | .decodeerr _ => false
  | .dumpstatus => true

/-- The sequencer's status reads (R194, R204): word reads of register 0x00. -/
def BusEvent.isStatusRead : BusEvent → Bool
  | .memRead a w _ => a == Reg.status && w == .w8
  | .memWrite _ _ _ _ => false
  | .memReadBlock _ _ _ => false
  | .memWriteBlock _ _ _ => false
  | .sleep _ => false

/-- The sleeps of a trace (R204). -/
def BusEvent.isSleep : BusEvent → Bool
  | .memRead _ _ _ => false
  | .memWrite _ _ _ _ => false
  | .memReadBlock _ _ _ => false
  | .memWriteBlock _ _ _ => false
  | .sleep _ => true

/-- The value a status read of the sequencer brought (R22); every other event brings none. -/
def BusEvent.status? : BusEvent → Option Word
  | .memRead a w o => if a == Reg.status && w == .w8 then o else none
  | .memWrite _ _ _ _ => none
  | .memReadBlock _ _ _ => none
  | .memWriteBlock _ _ _ => none
  | .sleep _ => none

/-- R22: the mode mirror after the events `evs` of a command that started with `devmode = 0`: what the last
status read among them showed. -/
def mirrorAfter (evs : List BusEvent) : DeviceMode :=
  match (evs.filterMap BusEvent.status?).getLast? with
  | none => .boot
  | some v => if v.getLsbD 7 = Config.fwModeApp then .app else .boot

/-- R30, the column "Next": the states that can follow a state within a command, with the latches they take
over; a state with no row here is followed by IDLE alone. -/
def Pc.followedBy (p q : Pc) : Bool :=
  match p, q with
  | .wfProbe f _, .wfWrite g _ => f == g
  | .inHwid m w, .inStatus n x => m == n && w == x
  | .inStatus m w, .inAppstart n x => m == n && w == x
  | .inStatus m w, .inSetmode n x => m == n && w == x
  | .inAppstart m w, .inSettle n x => m == n && w == x
  | .inSettle m w, .inRecheck n x => m == n && w == x
  | .inRecheck m w, .inSetmode n x => m == n && w == x
  | .inSetmode m w, .rrPoll u _ _ => w && m.mode != 0 && u == .init
  | .rrPoll u _ _, .rrFetch v => u == v
  | .rrPoll u t0 T, .rrSleep v t1 T' => u == v && t0 == t1 && T == T'
  | .rrSleep u t0 T, .rrPoll v t1 T' => u == v && t0 == t1 && T == T'
  | .dsStatus, .dsBase _ => true
  | .dsBase st, .dsHwid st' _ => st == st'
  | _, _ => false

/-- `k` steps of the machine, one after the other. -/
def steps : Nat → State → Host.Outcome State Fault Refusal
  | 0, s => .next s
  | k + 1, s =>
    match step s with
    | .next t => steps k t
    | .fault r => .fault r
    | .refused r => .refused r

/-- The state without the host's side, in which a command that is watched and one that is not are the same. -/
def State.blockSide (s : State) : State := s.withHost [] []

/-- The transactions that write the sensor (R52, R54). -/
def BusEvent.isWrite : BusEvent → Bool
  | .memRead _ _ _ => false
  | .memWrite _ _ _ _ => true
  | .memReadBlock _ _ _ => false
  | .memWriteBlock _ _ _ => true
  | .sleep _ => false

/-- The transactions whose transport reported failure (R51 to R54). -/
def BusEvent.failed : BusEvent → Bool
  | .memRead _ _ o => o.isNone
  | .memWrite _ _ _ ok => !ok
  | .memReadBlock _ _ o => o == .fail
  | .memWriteBlock _ _ ok => !ok
  | .sleep _ => false

/-- A transaction as R61 names it: a read (`false`) or a write (`true`), its address, its number of bytes. -/
abbrev BusAccess := Bool × Byte × Nat

/-- The transaction an event is; a sleep is none. -/
def BusEvent.access? : BusEvent → Option BusAccess
  | .memRead a w _ => some (false, a, w.bits / 8)
  | .memWrite a w _ _ => some (true, a, w.bits / 8)
  | .memReadBlock a n _ => some (false, a, n)
  | .memWriteBlock a bs _ => some (true, a, bs.length)
  | .sleep _ => none

/-- R61: the transactions of the result reads: one byte of 0x00 per poll, eight bytes of 0x02. -/
def resultAccesses : List BusAccess := [(false, 0x00, 1), (false, 0x02, 8)]

/-- R61: the transactions a command may issue. -/
def allowedAccesses : Instr → List BusAccess
  | .rdfield f => [(false, f.addr, f.width.bits / 8)]
  | .wrfield f _ => [(false, f.addr, f.width.bits / 8), (true, f.addr, f.width.bits / 8)]
  | .init _ _ => (false, 0x20, 1) :: (true, 0xF4, 0) :: (true, 0x01, 1) :: resultAccesses
  | .setmode _ => [(true, 0x01, 1)]
  | .swreset => [(true, 0xFF, 4)]
  | .pollrdy => [(false, 0x00, 1)]
  | .rdresult _ => resultAccesses
  | .rdeco2 _ => resultAccesses
  | .rdetvoc _ => resultAccesses
  | .setcal _ _ => [(true, 0x05, 4)]
  | .getbase => [(false, 0x11, 2)]
  | .setbase _ => [(true, 0x11, 2)]
  | .decodeerr _ => []
  | .dumpstatus => [(false, 0x00, 1), (false, 0x11, 2), (false, 0x20, 1)]

/-- The state after a one-byte read of `a` that the transport reported done (R51). -/
def State.sawByte (s : State) (a : Byte) : State :=
  s.event (.memRead a .w8 (some (s.nextAnswer.b0.setWidth 32))) 0

/-- The state after a two-byte read of `a` that was done, first byte most significant (R51, R58). -/
def State.sawHalf (s : State) (a : Byte) : State :=
  s.event (.memRead a .w16 (some ((s.nextAnswer.b0 ++ s.nextAnswer.b1).setWidth 32))) 0

/-- The state after a read the transport reported failed (R51). -/
def State.readFailed (s : State) (a : Byte) (w : Width) : State := s.event (.memRead a w none) 0

/-- The state after a write that was acknowledged (R52). -/
def State.wrote (s : State) (a : Byte) (w : Width) (v : Word) : State := s.event (.memWrite a w v true) 0

/-- The state after a write the transport reported failed (R52). -/
def State.writeFailed (s : State) (a : Byte) (w : Width) (v : Word) : State :=
  s.event (.memWrite a w v false) 0

/-- The state after the block read of the result block, with its outcome (R53). -/
def State.readBlock (s : State) (o : BlockOutcome) : State := s.event (.memReadBlock 0x02 8 o) 0

/-- The registers with the mode mirror of a status byte, for the parameter `FW_MODE_APP` (R22, R65). -/
def Regs.mirror (r : Regs) (status : Byte) : Regs :=
  { r with devmode := if status.getLsbD 7 = Config.fwModeApp then .app else .boot }

/-- A response of status OK (R101, R102). -/
def okWith (op : Byte) (r1 r2 : Word) : Response := ⟨.ok, op, 0, r1, r2⟩

/-- A response that is only its status: NoData, Timeout, NotConstructed, IllegalCommand (R262). -/
def bare (st : Status) (op : Byte) : Response := ⟨st, op, 0, 0, 0⟩

/-- The response of a failed transaction: bit 8 of `info` is `wr`, bits 7 to 0 the address (R262). -/
def transportFailure (op : Byte) (wr : Bool) (a : Byte) : Response :=
  ⟨.transportError, op, BitVec.ofNat 16 ((if wr then 256 else 0) + a.toNat), 0, 0⟩

/-- R310 to R312, R59, R79: the host duty on the codec: the address is listed, the width is the register's, a
read reads a readable register, a write writes a writable one, and a partial write, which also reads, needs
both. The block itself checks none of this (R76). -/
def respectsAccess (i : Instr) : Bool :=
  match i with
  | .rdfield f =>
    (mapRow? f.addr).any fun r => r.bytes * 8 == f.width.bits && r.access != .w
  | .wrfield f _ =>
    (mapRow? f.addr).any fun r =>
      r.bytes * 8 == f.width.bits && r.access != .r && (fullWidth f || r.access == .rw)
  | .init _ _ => true
  | .setmode _ => true
  | .swreset => true
  | .pollrdy => true
  | .rdresult _ => true
  | .rdeco2 _ => true
  | .rdetvoc _ => true
  | .setcal _ _ => true
  | .getbase => true
  | .setbase _ => true
  | .decodeerr _ => true
  | .dumpstatus => true

/-- R314: the host duty on the mode bits: `DRIVE_MODE` of MEAS_MODE is not written through the codec. -/
def leavesDriveMode (i : Instr) : Bool :=
  match i with
  | .wrfield f _ => !(f.addr == Reg.measMode && (f.mask &&& 0x70) != 0)
  | .rdfield _ => true
  | .init _ _ => true
  | .setmode _ => true
  | .swreset => true
  | .pollrdy => true
  | .rdresult _ => true
  | .rdeco2 _ => true
  | .rdetvoc _ => true
  | .setcal _ _ => true
  | .getbase => true
  | .setbase _ => true
  | .decodeerr _ => true
  | .dumpstatus => true

/-! ### What the statements name -/

/-- The conditional must-be-zero bits of R95(e), R98 and R99; those of R100 are in the table's mask.
`true` where a word of the opcode breaks them. -/
def conditionalBitsSet (o : Opcode) (w : Command) : Bool :=
  let osup := w.getLsbD 108
  let b1 := w.getLsbD 97
  let b0 := w.getLsbD 96
  let w2 : Word := w.extractLsb' 32 32
  let w3 : Word := w.extractLsb' 0 32
  match o with
  | .rdfield | .wrfield => !osup && w.extractLsb' 103 5 != 0
  | .rdresult | .rdeco2 | .rdetvoc => (!b1 && (b0 || w2 != 0)) || (b1 && !b0 && w2 != 0)
  | .setcal => (!b1 && w2 != 0) || (!b0 && w3 != 0)
  | .init | .setmode | .swreset | .pollrdy | .getbase | .setbase | .decodeerr | .dumpstatus => false

/-- R95: the descriptor of a word is ill-formed, by its bits: (a) to (e) in order. -/
abbrev illFormedDescriptor (w : Command) : Prop :=
  w.extractLsb' 110 2 = (3 : BitVec 2) ∨
    w.extractLsb' 64 32 = (0 : Word) ∨
    2 ^ (8 * 2 ^ (w.extractLsb' 110 2).toNat) ≤ (w.extractLsb' 64 32).toNat ∨
    (w.getLsbD 108 = true ∧ (w.extractLsb' 103 5).toNat ≠ ctz (w.extractLsb' 64 32)) ∨
    (w.getLsbD 108 = false ∧ w.extractLsb' 103 5 ≠ (0 : BitVec 5))

/-- The value RDFIELD returns for the register content `raw` (R131, with `off = ctz(mask)` and
`n = bitlen(mask >> off)` of R94 and `sext` of R10), written out. -/
def fieldReadValue (f : RegisterField) (raw : Word) : Word :=
  let off := ctz f.mask
  let n := bitlen (f.mask >>> off)
  let v := if f.mask.toNat = 2 ^ f.width.bits - 1 then raw else (raw &&& f.mask) >>> off
  if f.signed = true ∧ v.getLsbD (n - 1) = true then BitVec.ofNat 32 (v.toNat + 2 ^ 32 - 2 ^ n) else v

/-- The registers INIT starts from (R161): the reset values; `poll_timeout` and `cache_bytes` are not
assigned. -/
def initRegs (r : Regs) : Regs :=
  { r with
    constructed := false, devmode := .boot, measMode := 0, pollTimeoutValid := false, cacheValid := false
    calHum := 25600, calTemp := 12800 }

/-- The registers a mode write that succeeded leaves (R164, with the timeouts of R165): the cache invalid, the
mode, and its timeout, none for Idle. -/
def modeRegs (r : Regs) (mode : BitVec 3) : Regs :=
  if mode = 0 then { r with cacheValid := false, measMode := 0, pollTimeoutValid := false }
  else
    { r with
      cacheValid := false, measMode := mode, pollTimeoutValid := true
      pollTimeout := if mode = 1 then 1100 else if mode = 2 then 11000 else if mode = 3 then 66000 else 275 }

/-- The byte written to MEAS_MODE (R164): `(mode << 4) | (drdy << 3) | (thr << 2)`. -/
def measModeByte (m : ModeArgs) : Word :=
  (m.mode.setWidth 32 <<< 4) ||| ((BitVec.ofBool m.drdy).setWidth 32 <<< 3) |||
    ((BitVec.ofBool m.thr).setWidth 32 <<< 2)

/-- The response a complete block gives each user of the fetch (R102). -/
def blockResponse : ResultUser → ResultBlock → Response
  | .init, _ => okWith 0x10 0 0
  | .result, b => okWith 0x21 (b.b0 ++ b.b1 ++ b.b2 ++ b.b3) (b.b4 ++ b.b5 ++ b.b6 ++ b.b7)
  | .eco2, b => okWith 0x22 (BitVec.ofNat 32 (b.b0.toNat * 256 + b.b1.toNat)) 0
  | .etvoc, b => okWith 0x23 (BitVec.ofNat 32 (b.b2.toNat * 256 + b.b3.toNat)) 0

end Sys2Proof.Machine
end

