-- ==== Sys2Proof/Certificates/Slice0/Obligations.lean ====
section
/-! DEFINITION. The statements for the provers. Each docstring names the rule it formalises. The bus and time
are the environment's: `s.nextAnswer` is whatever it answers next, scripted or free, so a statement about every
state is about every environment. No statement rests on the value of a free answer. -/

open Sys2Proof Sys2Proof.Machine

/-! ### Encoding -/

/-- R109: the worked encodings, decoded. -/
def Obligations.WorkedEncodingsDecode : Prop :=
  decode 0x01000000000000080000000000000000 = .ok (.rdfield ⟨0x00, .w8, 0x08, false, none⟩) ∧
  decode 0x01001180000000080000000000000000 = .ok (.rdfield ⟨0x00, .w8, 0x08, false, some 3⟩) ∧
  decode 0x02010000000000080000000100000000 = .ok (.wrfield ⟨0x01, .w8, 0x08, false, none⟩ 1) ∧
  decode 0x010340000000FC000000000000000000 = .ok (.rdfield ⟨0x03, .w16, 0xFC00, false, none⟩) ∧
  decode 0x010360000000FC000000000000000000 = .ok (.rdfield ⟨0x03, .w16, 0xFC00, true, none⟩) ∧
  decode 0x02058000FFFFFFFF6400640000000000 =
    .ok (.wrfield ⟨0x05, .w32, 0xFFFFFFFF, false, none⟩ 0x64006400) ∧
  decode 0x10000012000000000000000000000000 = .ok (.init ⟨1, false, false⟩ true) ∧
  decode 0x11000048000000000000000000000000 = .ok (.setmode ⟨4, true, false⟩) ∧
  decode 0x13000000000000000000000000000000 = .ok .swreset ∧
  decode 0x20000000000000000000000000000000 = .ok .pollrdy ∧
  decode 0x21000002000000000000000000000000 = .ok (.rdresult .derived) ∧
  decode 0x2100000300000000000001F400000000 = .ok (.rdresult (.explicit 500)) ∧
  decode 0x30000003000000000000610000002F00 = .ok (.setcal (some 24832) (some 12032)) ∧
  decode 0x32000000000000000000A5C300000000 = .ok (.setbase 0xA5C3) ∧
  decode 0x40200000000000000000000000000000 = .ok (.decodeerr 0x20)

/-- Decode and encode agree: every well-formed command is read back from its own word, with every operand. -/
def Obligations.DecodeOfEncode : Prop := ∀ i : Instr, i.wf = true → decode (encode i) = .ok i

/-- Every word the decoder accepts is the word of the command it reads, and that command is well-formed: no
bit of an accepted word is ignored. -/
def Obligations.EncodeOfDecode : Prop :=
  ∀ (w : Command) (i : Instr), decode w = .ok i → encode i = w ∧ i.wf = true

/-- R267: a word the decoder refuses is answered IllegalCommand with the `op` byte presented: no transaction,
no state change, `pc` stays IDLE. -/
def Obligations.IllegalCommandChangesNothing : Prop :=
  ∀ (s : State) (w : Command) (rest : List HostInput) (e : DecodeError),
    s.pc = .idle → s.inputs = .command w :: rest → decode w = .error e →
      step s = .next { s with
        inputs := rest, responses := s.responses ++ [bare .illegalCommand (w.extractLsb' 120 8)] }

/-- R105: every `op` value not in the map of R93 is refused: no state change, no transaction. -/
def Obligations.UndefinedOpcodesRefused : Prop :=
  ∀ (s : State) (w : Command) (rest : List HostInput),
    s.pc = .idle → s.inputs = .command w :: rest →
    w.extractLsb' 120 8 ∉
      ([0x01, 0x02, 0x10, 0x11, 0x13, 0x20, 0x21, 0x22, 0x23, 0x30, 0x31, 0x32, 0x40, 0x41] : List Byte) →
      step s = .next { s with
        inputs := rest, responses := s.responses ++ [bare .illegalCommand (w.extractLsb' 120 8)] }

/-- R104: a command with any unused or conditional must-be-zero bit set is refused with IllegalCommand before
any state change or transaction. The unused bits are those of the opcode table's mask. -/
def Obligations.ReservedBitsRefused : Prop :=
  ∀ (s : State) (w : Command) (rest : List HostInput) (o : Opcode),
    s.pc = .idle → s.inputs = .command w :: rest → w.extractLsb' 120 8 = o.byte →
    (w &&& o.tableMask ≠ o.tableMatch ∨ conditionalBitsSet o w = true) →
      step s = .next { s with
        inputs := rest, responses := s.responses ++ [bare .illegalCommand o.byte] }

/-- R95: a descriptor is ill-formed where (a) `wcode = 3`, (b) `mask = 0`, (c) `mask ≥ 2^w`, (d) a supplied
offset is not `ctz(mask)`, or (e) offset bits are set without `osup`; then the command is refused with
IllegalCommand before any transaction; a word of RDFIELD or WRFIELD with none of these, and no reserved bit set,
is accepted, holes in its mask or not. -/
def Obligations.IllFormedDescriptorsRefused : Prop :=
  (∀ (s : State) (w : Command) (rest : List HostInput),
    s.pc = .idle → s.inputs = .command w :: rest →
    (w.extractLsb' 120 8 = (0x01 : Byte) ∨ w.extractLsb' 120 8 = (0x02 : Byte)) →
    illFormedDescriptor w →
      step s = .next { s with
        inputs := rest, responses := s.responses ++ [bare .illegalCommand (w.extractLsb' 120 8)] }) ∧
  (∀ w : Command, ¬illFormedDescriptor w →
    (w &&& Opcode.rdfield.tableMask = Opcode.rdfield.tableMatch → ∃ f, decode w = .ok (.rdfield f)) ∧
    (w &&& Opcode.wrfield.tableMask = Opcode.wrfield.tableMatch →
      ∃ f, decode w = .ok (.wrfield f (w.extractLsb' 32 32))))

/-! ### The step, the host's inputs, reset -/

/-- R30, R90, R280: at IDLE a presented word that decodes is accepted: it leaves the input, and the step is the
command's meaning. Where the host looks at the outputs before anything else happens (the model's host, log entry
2), the step is the acceptance alone, and the command's meaning is what is left of it, run to its response. -/
def Obligations.StepRunsDecodedCommand : Prop :=
  ∀ (s : State) (w : Command) (rest : List HostInput) (i : Instr),
    s.pc = .idle → s.inputs = .command w :: rest → decode w = .ok i →
      (rest.head? ≠ some .observe → step s = exec i { s with inputs := rest }) ∧
      (rest.head? = some .observe →
        step s = .next (({ s with inputs := rest } : State).accept i) ∧
          exec i { s with inputs := rest } = .next (({ s with inputs := rest } : State).accept i).complete)

/-- R30, R31: at IDLE with no command presented the block waits; a look at the outputs shows `busy = 0` and the
cache, and changes nothing else. -/
def Obligations.IdleWaits : Prop :=
  (∀ s : State, s.pc = .idle → s.inputs = [] → step s = .next s) ∧
  (∀ (s : State) (rest : List HostInput), s.pc = .idle → s.inputs = .observe :: rest →
    step s = .next { s with
      inputs := rest
      observed := s.observed ++ [⟨false, if s.regs.cacheValid then some s.regs.cacheBytes else none⟩] })

/-- R30, R280: a command in progress, with a host that waits for its response, runs to IDLE and gives exactly one
response; the commands the host still holds stay where they are (the model's choice for a host that presents
one while `busy = 1`, log entry 3). That the command always ends is an ASSUMPTION, which the spec allows only as a
named one (R330, U17): that every transaction and every sleep returns, log entry 7, PRESUMED. -/
def Obligations.BusyCommandFinishes : Prop :=
  ∀ s : State, s.pc ≠ .idle → s.inputs.head? ≠ some .reset → s.inputs.head? ≠ some .observe →
    ∃ t r, step s = .next t ∧ t.pc = .idle ∧ t.inputs = s.inputs ∧ t.responses = s.responses ++ [r]

/-- R300: the block's one reset: every register the rule gives a value, and no transaction; `poll_timeout` and
`cache_bytes` are unreadable behind their cleared valid bits; the time goes on, which the block cannot reset
(R276). THE MODEL'S CHOICE (log entry 14, DESIGN CHOICE), and
not R300's words: the pulse is a host input taken at the start of a step, at any `pc`; a command in progress is
dropped with no response; and the partners' side stays as it is: the host's remaining inputs, what it has got and
seen, and the environment's answers. -/
def Obligations.ResetInputResets : Prop :=
  ∀ (s : State) (rest : List HostInput), s.inputs = .reset :: rest →
    ∃ t, step s = .next t ∧ t.pc = .idle ∧ t.regs.constructed = false ∧ t.regs.devmode = .boot ∧
      t.regs.measMode = 0 ∧ t.regs.pollTimeoutValid = false ∧ t.regs.cacheValid = false ∧
      t.regs.calHum = 25600 ∧ t.regs.calTemp = 12800 ∧
      t.trace = s.trace ∧ t.responses = s.responses ∧ t.inputs = rest ∧ t.observed = s.observed ∧
      t.answers = s.answers ∧ t.draws = s.draws ∧ t.now = s.now

/-- R34: the reset values the spec gives. -/
def Obligations.ResetRegisterValues : Prop :=
  State.reset.pc = .idle ∧ State.reset.regs.constructed = false ∧ State.reset.regs.devmode = .boot ∧
    State.reset.regs.measMode = 0 ∧ State.reset.regs.pollTimeoutValid = false ∧
    State.reset.regs.cacheValid = false ∧ State.reset.regs.calHum = 25600 ∧ State.reset.regs.calTemp = 12800

/-- The invariant of `Safety.lean` holds at reset. -/
def Obligations.ResetMeetsInvariant : Prop := State.reset.Inv

/-- From every state that meets the invariant, reachable or not, at IDLE or with a command in progress, every step
gives one that meets it: the mode code stays legal, the timeout agrees with it, a cached block has a constructed
handle, the calibration registers hold values that can be sent, and the latches of a command in progress agree
with the registers. -/
def Obligations.StepKeepsInvariant : Prop := ∀ s t : State, s.Inv → step s = .next t → t.Inv

/-! ### Every command -/

/-- R30, R101, R262, R274: every command, on every state and environment, ends at IDLE with exactly one
response, which echoes its `op`, whose status is one the table of R274 allows it, whose `info` is 0 on OK,
NoData and Timeout, and whose payload is 0 on every other status but InvalidFieldValue's `R1`. That every command
is answered is an ASSUMPTION: that every transaction and every sleep returns (log entry 7, PRESUMED, which R330 and
U17 allow only as a named assumption); and it speaks of a command that no reset pulse cuts short (log entry 14,
DESIGN CHOICE: such a command gives no response). -/
def Obligations.EveryCommandAnswersOnce : Prop :=
  ∀ (i : Instr) (s : State), ∃ t r, exec i s = .next t ∧ t.pc = .idle ∧
    t.responses = s.responses ++ [r] ∧ r.op = i.opcode.byte ∧ r.status ∈ allowedStatuses i ∧
    (r.status ∈ [Status.ok, .noData, .timeout] → r.info = 0) ∧
    (r.status ≠ .ok → r.r2 = 0 ∧ (r.status ≠ .invalidFieldValue → r.r1 = 0))

/-- R55, R263: no retry: a failed transaction is the last event of its command, and the response is
TransportError with its direction and address exactly when one failed. -/
def Obligations.FirstFailureEndsCommand : Prop :=
  ∀ (i : Instr) (s t : State), exec i s = .next t →
    ∃ evs r, t.trace = s.trace ++ evs ∧ t.responses = s.responses ++ [r] ∧
      (∀ e ∈ evs.dropLast, e.failed = false) ∧
      (∀ e ∈ evs.getLast?, e.failed = true → ∃ wr a n, e.access? = some (wr, a, n) ∧
        r = transportFailure i.opcode.byte wr a) ∧
      (r.status = .transportError → ∃ e ∈ evs.getLast?, e.failed = true)

/-- R61, R141, R199: the transactions each command may issue, by address, direction and number of bytes; in
particular the block reads ERROR_ID and writes registers other than its own only through the codec. -/
def Obligations.CommandsIssueOnlyTheirAccesses : Prop :=
  ∀ (i : Instr) (s t : State), exec i s = .next t →
    ∃ evs, t.trace = s.trace ++ evs ∧ ∀ e ∈ evs, ∀ a, e.access? = some a → a ∈ allowedAccesses i

/-- R20, the column "Written by": each register is unchanged by every command the column does not name. -/
def Obligations.RegistersWrittenOnlyByTheirCommands : Prop :=
  ∀ (i : Instr) (s t : State), exec i s = .next t →
    (i.opcode ∉ [Opcode.init, .swreset] → t.regs.constructed = s.regs.constructed) ∧
    (i.opcode ∉ [Opcode.init, .pollrdy, .rdresult, .rdeco2, .rdetvoc, .dumpstatus, .swreset] →
      t.regs.devmode = s.regs.devmode) ∧
    (i.opcode ∉ [Opcode.init, .setmode, .swreset] →
      t.regs.measMode = s.regs.measMode ∧ t.regs.pollTimeoutValid = s.regs.pollTimeoutValid) ∧
    (i.opcode ∉ [Opcode.init, .setmode] → t.regs.pollTimeout = s.regs.pollTimeout) ∧
    (i.opcode ∉ [Opcode.init, .setmode, .rdresult, .rdeco2, .rdetvoc, .swreset] →
      t.regs.cacheValid = s.regs.cacheValid) ∧
    (i.opcode ∉ [Opcode.init, .rdresult, .rdeco2, .rdetvoc] → t.regs.cacheBytes = s.regs.cacheBytes) ∧
    (i.opcode ∉ [Opcode.setcal, .init] →
      t.regs.calHum = s.regs.calHum ∧ t.regs.calTemp = s.regs.calTemp)

/-- R14, R80: what no command does: it presents and observes nothing on the host's behalf, it takes back no event
and no response, and time does not run backwards. -/
def Obligations.HistoryOnlyGrows : Prop :=
  ∀ (i : Instr) (s t : State), exec i s = .next t →
    t.inputs = s.inputs ∧ t.observed = s.observed ∧ s.trace <+: t.trace ∧ s.responses <+: t.responses ∧ s.now ≤ t.now

/-- R25, R202: the cache is filled only by a block read of exactly eight bytes, all of them at once: where a
command leaves `cache_bytes` changed, or `cache_valid` newly set, its last event is that read of those bytes. -/
def Obligations.CacheFilledOnlyByFullBlock : Prop :=
  ∀ (i : Instr) (s t : State), exec i s = .next t →
    (t.regs.cacheBytes ≠ s.regs.cacheBytes ∨ (t.regs.cacheValid = true ∧ s.regs.cacheValid = false)) →
    t.regs.cacheValid = true ∧
    t.trace.getLast? = some (.memReadBlock 0x02 8 (.bytes
      [t.regs.cacheBytes.b0, t.regs.cacheBytes.b1, t.regs.cacheBytes.b2, t.regs.cacheBytes.b3,
        t.regs.cacheBytes.b4, t.regs.cacheBytes.b5, t.regs.cacheBytes.b6, t.regs.cacheBytes.b7]))

/-- R266: a handle command on a block with no constructed handle answers NotConstructed, with no transaction
and no state change, whatever its operands; RDFIELD, WRFIELD, INIT, SWRESET and DECODEERR never raise it. -/
def Obligations.HandleCommandsNeedConstruction : Prop :=
  (∀ (i : Instr) (s : State), i.opcode ∈
      [Opcode.setmode, .pollrdy, .rdresult, .rdeco2, .rdetvoc, .setcal, .getbase, .setbase, .dumpstatus] →
    s.regs.constructed = false →
      exec i s = .next (s.respond (bare .notConstructed i.opcode.byte))) ∧
  (∀ (i : Instr) (s t : State), i.opcode ∈ [Opcode.rdfield, .wrfield, .init, .swreset, .decodeerr] →
    exec i s = .next t → ∀ r, t.responses = s.responses ++ [r] → r.status ≠ .notConstructed)

/-! ### Bytes, fields, responses -/

/-- R51, R52, R58: big-endian both ways: a read's first byte is most significant, and the bytes a write drives,
read back in bus order, are the value written. -/
def Obligations.BigEndianBothWays : Prop :=
  (∀ a : Answer, (wordOf a .w8).toNat = a.b0.toNat ∧
    (wordOf a .w16).toNat = a.b0.toNat * 2 ^ 8 + a.b1.toNat ∧
    (wordOf a .w32).toNat =
      a.b0.toNat * 2 ^ 24 + a.b1.toNat * 2 ^ 16 + a.b2.toNat * 2 ^ 8 + a.b3.toNat) ∧
  (∀ (a : Answer) (w : Width) (v : Word), v.toNat < 2 ^ w.bits →
    busBytes v w = [a.b0, a.b1, a.b2, a.b3].take (w.bits / 8) → wordOf a w = v)

/-- R101, R260: where the response word carries its fields, and the eleven status codes. -/
def Obligations.ResponseWordLayout : Prop :=
  (Status.ok.code = 0 ∧ Status.noData.code = 1 ∧ Status.timeout.code = 2 ∧ Status.transportError.code = 3 ∧
    Status.invalidFieldValue.code = 4 ∧ Status.invalidMeasurementMode.code = 5 ∧
    Status.unexpectedHardwareId.code = 6 ∧ Status.modeTransitionFailed.code = 7 ∧ Status.readFailed.code = 8 ∧
    Status.notConstructed.code = 9 ∧ Status.illegalCommand.code = 10) ∧
  ∀ r : Response, r.word.extractLsb' 88 8 = r.status.code ∧ r.word.extractLsb' 80 8 = r.op ∧
    r.word.extractLsb' 64 16 = r.info ∧ r.word.extractLsb' 32 32 = r.r1 ∧ r.word.extractLsb' 0 32 = r.r2

/-- R10, R134: `~mask` within the declared width is `(2^w − 1) − mask`. -/
def Obligations.ComplementWithinWidth : Prop :=
  ∀ f : RegisterField, f.wf = true → (siblingMask f).toNat = 2 ^ f.width.bits - 1 - f.mask.toNat

/-- R136: sibling bits outside the field are unchanged by a partial write, and the field then holds the
value. -/
def Obligations.PartialWriteKeepsSiblings : Prop :=
  ∀ (f : RegisterField) (cur value : Word), f.wf = true → value &&& ~~~(f.mask >>> ctz f.mask) = 0 →
    mergeField f cur value &&& siblingMask f = cur &&& siblingMask f ∧
      (mergeField f cur value &&& f.mask) >>> ctz f.mask = value

/-- R131(f), R134: an unsigned field read never has a bit set outside `valmask`, and a value that fits, shifted
to its place, stays within the mask. -/
def Obligations.FieldsStayInTheirMask : Prop :=
  ∀ f : RegisterField, f.wf = true →
    (∀ a : Answer, f.signed = false →
      readResult f (wordOf a f.width) &&& ~~~(f.mask >>> ctz f.mask) = 0) ∧
    (∀ value : Word, value &&& ~~~(f.mask >>> ctz f.mask) = 0 →
      (value <<< ctz f.mask) &&& f.mask = value <<< ctz f.mask ∧
        value.toNat * 2 ^ ctz f.mask < 2 ^ f.width.bits)

/-- R197: the parse of the result block, as unsigned numbers. -/
def Obligations.ResultBlockParses : Prop :=
  ∀ b : ResultBlock, b.eco2.toNat = b.b0.toNat * 256 + b.b1.toNat ∧
    b.etvoc.toNat = b.b2.toNat * 256 + b.b3.toNat ∧ b.status = b.b4 ∧ b.error = b.b5 ∧
    b.raw.toNat = b.b6.toNat * 256 + b.b7.toNat ∧ b.current.toNat = b.raw.toNat / 2 ^ 10 ∧
    b.adc.toNat = b.raw.toNat % 2 ^ 10

/-- R198: `volts = adc × 11 / 6820`; full scale is exactly 1.65 V and 0 is 0 V. -/
def Obligations.AdcConversion : Prop :=
  ∀ b : ResultBlock, b.volts = (b.adc.toNat : ℚ) * 11 / 6820 ∧
    (b.adc = 1023 → b.volts = 165 / 100) ∧ (b.adc = 0 → b.volts = 0)

/-! ### The Field Codec -/

/-- R131: RDFIELD: one read; on OK the field's value, on failure TransportError; no register changes. -/
def Obligations.RdfieldReadsField : Prop :=
  ∀ (f : RegisterField) (s : State), f.wf = true →
    (s.nextAnswer.ok = true →
      exec (.rdfield f) s = .next
        ((s.event (.memRead f.addr f.width (some (wordOf s.nextAnswer f.width))) 0).respond
          (okWith 0x01 (fieldReadValue f (wordOf s.nextAnswer f.width)) 0))) ∧
    (s.nextAnswer.ok = false →
      exec (.rdfield f) s = .next
        ((s.readFailed f.addr f.width).respond (transportFailure 0x01 false f.addr)))

/-- R132: WRFIELD's fit check, before any transaction, and its full-width path: one write and no read. -/
def Obligations.WrfieldChecksAndWritesWhole : Prop :=
  ∀ (f : RegisterField) (value : Word) (s : State), f.wf = true →
    (value &&& (0xFFFFFFFF - (f.mask >>> ctz f.mask)) ≠ 0 →
      exec (.wrfield f value) s = .next (s.respond ⟨.invalidFieldValue, 0x02, 0, value, 0⟩)) ∧
    (value &&& (0xFFFFFFFF - (f.mask >>> ctz f.mask)) = 0 → f.mask.toNat = 2 ^ f.width.bits - 1 →
      (s.nextAnswer.ok = true →
        exec (.wrfield f value) s = .next
          ((s.wrote f.addr f.width value).respond (okWith 0x02 0 0))) ∧
      (s.nextAnswer.ok = false →
        exec (.wrfield f value) s = .next
          ((s.writeFailed f.addr f.width value).respond (transportFailure 0x02 true f.addr))))

/-- R133: WRFIELD's partial path: a probe read, then the write of
`(cur & ~mask) | ((value << off) & mask)`; either failure is a TransportError, the first with no write. -/
def Obligations.WrfieldReadModifyWrite : Prop :=
  ∀ (f : RegisterField) (value : Word) (s : State), f.wf = true →
    value &&& ~~~(f.mask >>> ctz f.mask) = 0 → f.mask.toNat ≠ 2 ^ f.width.bits - 1 →
    let cur := wordOf s.nextAnswer f.width
    let new := (cur &&& (f.width.ones &&& ~~~f.mask)) ||| ((value <<< ctz f.mask) &&& f.mask)
    let probed := s.event (.memRead f.addr f.width (some cur)) 0
    (s.nextAnswer.ok = false →
      exec (.wrfield f value) s = .next
        ((s.readFailed f.addr f.width).respond (transportFailure 0x02 false f.addr))) ∧
    (s.nextAnswer.ok = true → probed.nextAnswer.ok = false →
      exec (.wrfield f value) s = .next
        ((probed.writeFailed f.addr f.width new).respond (transportFailure 0x02 true f.addr))) ∧
    (s.nextAnswer.ok = true → probed.nextAnswer.ok = true →
      exec (.wrfield f value) s = .next
        ((probed.wrote f.addr f.width new).respond (okWith 0x02 0 0)))

/-- R135: round trip: where WRFIELD answered OK, its last transaction wrote `new`, and the sensor then answers a
read with `new`, RDFIELD of the same field returns the value written: as it is for an unsigned field,
sign-extended from its `n` bits for a signed one. -/
def Obligations.WriteThenReadReturnsValue : Prop :=
  ∀ (f : RegisterField) (value new : Word) (s t : State), f.wf = true →
    exec (.wrfield f value) s = .next t → t.responses = s.responses ++ [okWith 0x02 0 0] →
    t.trace.getLast? = some (.memWrite f.addr f.width new true) →
    t.nextAnswer.ok = true → wordOf t.nextAnswer f.width = new →
      exec (.rdfield f) t = .next
        ((t.event (.memRead f.addr f.width (some new)) 0).respond
          (okWith 0x01
            (if f.signed then sext32 (bitlen (f.mask >>> ctz f.mask)) value else value) 0))

/-- R130: the codec has no state of its own: with any other register contents the same command issues the same
transactions and gives the same response, and leaves those contents as they are. -/
def Obligations.CodecIgnoresRegisters : Prop :=
  ∀ (i : Instr) (s t : State) (r : Regs), i.opcode ∈ [Opcode.rdfield, .wrfield] → exec i s = .next t →
    t.regs = s.regs ∧ exec i (s.withRegs r) = .next (t.withRegs r)

/-! ### Device mode -/

/-- R165: the nominal periods, and the derived timeouts: 1100, 11000, 66000, 275 for modes 1 to 4, none for
Idle. -/
def Obligations.DerivedTimeouts : Prop :=
  (Config.periodMs .oneSecond = some 1000 ∧ Config.periodMs .tenSecond = some 10000 ∧
    Config.periodMs .sixtySecond = some 60000 ∧ Config.periodMs .rawFast = some 250 ∧
    Config.periodMs .idle = none) ∧
  derivedTimeout 0 = none ∧ derivedTimeout 1 = some 1100 ∧ derivedTimeout 2 = some 11000 ∧
    derivedTimeout 3 = some 66000 ∧ derivedTimeout 4 = some 275

/-- R162, R264: an invalid mode is refused before any transaction and any state change; otherwise the first
transaction of INIT reads HW_ID, and unless it is 0x81 INIT ends there: nothing has been written. -/
def Obligations.InitChecksModeThenIdentity : Prop :=
  ∀ (m : ModeArgs) (wait : Bool) (s : State),
    (4 < m.mode.toNat →
      exec (.init m wait) s =
        .next (s.respond ⟨.invalidMeasurementMode, 0x10, m.mode.setWidth 16, 0, 0⟩)) ∧
    (m.mode.toNat ≤ 4 →
      let s0 := s.withRegs (initRegs s.regs)
      (s0.nextAnswer.ok = false →
        exec (.init m wait) s = .next ((s0.readFailed 0x20 .w8).respond (transportFailure 0x10 false 0x20))) ∧
      (s0.nextAnswer.ok = true → s0.nextAnswer.b0 ≠ 0x81 →
        exec (.init m wait) s =
          .next ((s0.sawByte 0x20).respond
            ⟨.unexpectedHardwareId, 0x10, s0.nextAnswer.b0.setWidth 16, 0, 0⟩)) ∧
      (s0.nextAnswer.ok = true → s0.nextAnswer.b0 = 0x81 →
        exec (.init m wait) s = .next ((s0.sawByte 0x20).goto (.inStatus m wait)).complete))

/-- R163: BootToApp: the zero-length write of APP_START, the settle sleep of at least 2 ms, the status re-read;
still Boot is ModeTransitionFailed; a failed transaction is a TransportError. An INIT writes APP_START at most once,
and does so exactly where its first status read that succeeded showed Boot: a sensor in App gets no such write. For whichever polarity `FW_MODE_APP` has. -/
def Obligations.BootToAppRule : Prop :=
  (∀ (m : ModeArgs) (wait : Bool) (s : State), s.pc = .inStatus m wait → s.nextAnswer.ok = true →
    let seen := (s.sawByte 0x00).withRegs (s.regs.mirror s.nextAnswer.b0)
    s.complete =
      (if seen.regs.devmode = .boot then seen.goto (.inAppstart m wait)
        else seen.goto (.inSetmode m wait)).complete) ∧
  (∀ (m : ModeArgs) (wait : Bool) (s t : State), exec (.init m wait) s = .next t →
    ∃ evs, t.trace = s.trace ++ evs ∧ evs.countP (fun e => e.access? == some (true, 0xF4, 0)) ≤ 1 ∧
      ((∃ e ∈ evs, e.access? = some (true, 0xF4, 0)) ↔
        ∃ v, (evs.filterMap BusEvent.status?).head? = some v ∧ v.getLsbD 7 ≠ Config.fwModeApp)) ∧
  ∀ (m : ModeArgs) (wait : Bool) (s : State), s.pc = .inAppstart m wait →
    let started := s.event (.memWriteBlock 0xF4 [] true) 0
    let settled := started.event (.sleep 2) 2
    let seen := settled.sawByte 0x00
    let after := seen.withRegs (seen.regs.mirror settled.nextAnswer.b0)
    (s.nextAnswer.ok = false →
      s.complete =
        (s.event (.memWriteBlock 0xF4 [] false) 0).respond (transportFailure 0x10 true 0xF4)) ∧
    (s.nextAnswer.ok = true →
      settled.now ≥ s.now + 2 ∧
      (settled.nextAnswer.ok = false →
        s.complete = (settled.readFailed 0x00 .w8).respond (transportFailure 0x10 false 0x00)) ∧
      (settled.nextAnswer.ok = true → after.regs.devmode = .boot →
        s.complete = after.respond
          ⟨.modeTransitionFailed, 0x10, settled.nextAnswer.b0.setWidth 16, 0, 0⟩) ∧
      (settled.nextAnswer.ok = true → after.regs.devmode = .app →
        s.complete = (after.goto (.inSetmode m wait)).complete))

/-- R161: INIT against a sensor already in App, without a wait (or in Idle, where step 4 is skipped): three
transactions, and the handle is constructed. -/
def Obligations.InitFromAppConstructs : Prop :=
  ∀ (m : ModeArgs) (wait : Bool) (s : State), m.mode.toNat ≤ 4 → (wait = false ∨ m.mode = 0) →
    let s1 := s.sawByte 0x20
    let s2 := s1.sawByte 0x00
    s.nextAnswer.ok = true → s.nextAnswer.b0 = 0x81 →
    s1.nextAnswer.ok = true → s1.nextAnswer.b0.getLsbD 7 = Config.fwModeApp → s2.nextAnswer.ok = true →
      exec (.init m wait) s = .next
        (((s2.wrote 0x01 .w8 (measModeByte m)).withRegs { modeRegs (initRegs s.regs) m.mode with
            constructed := true, devmode := .app }).respond (okWith 0x10 0 0))

/-- R161, R163: INIT against a sensor in Boot that starts: six events, the settle sleep among them. -/
def Obligations.InitFromBootConstructs : Prop :=
  ∀ (m : ModeArgs) (wait : Bool) (s : State), m.mode.toNat ≤ 4 → (wait = false ∨ m.mode = 0) →
    let s1 := s.sawByte 0x20
    let s2 := s1.sawByte 0x00
    let s3 := s2.event (.memWriteBlock 0xF4 [] true) 0
    let s4 := s3.event (.sleep 2) 2
    let s5 := s4.sawByte 0x00
    s.nextAnswer.ok = true → s.nextAnswer.b0 = 0x81 →
    s1.nextAnswer.ok = true → s1.nextAnswer.b0.getLsbD 7 ≠ Config.fwModeApp → s2.nextAnswer.ok = true →
    s4.nextAnswer.ok = true → s4.nextAnswer.b0.getLsbD 7 = Config.fwModeApp → s5.nextAnswer.ok = true →
      exec (.init m wait) s = .next
        (((s5.wrote 0x01 .w8 (measModeByte m)).withRegs { modeRegs (initRegs s.regs) m.mode with
            constructed := true, devmode := .app }).respond (okWith 0x10 0 0))

/-- R161 step 4: with `wait`, once the mode is written, INIT polls with twice the derived timeout (2200, 22000,
132000, 550 ms) from the time of that write. -/
def Obligations.InitWaitsTwiceTheTimeout : Prop :=
  ∀ (m : ModeArgs) (s : State), s.pc = .inSetmode m true → 1 ≤ m.mode.toNat → m.mode.toNat ≤ 4 →
    s.nextAnswer.ok = true →
    let written := s.wrote 0x01 .w8 (measModeByte m)
    s.complete =
      ((written.withRegs (modeRegs s.regs m.mode)).goto (.rrPoll .init written.now
        (if m.mode = 1 then 2200 else if m.mode = 2 then 22000 else if m.mode = 3 then 132000
          else 550))).complete

/-- R21, R22, R161, R164: the statuses INIT can end with, and what each leaves. InvalidMeasurementMode: nothing
changed, nothing issued. Else: constructed exactly on OK and Timeout; the calibration defaults; a valid cache
exactly when OK came with a first sample; the mirror of the last status read (log entry 15), Boot on
ModeTransitionFailed; the mode and its timeout as requested where the mode write was acknowledged, else as a new
handle has them. It was acknowledged on OK, Timeout, ReadFailed, not on UnexpectedHardwareId,
ModeTransitionFailed; TransportError comes before or after it. -/
def Obligations.InitOutcomes : Prop :=
  ∀ (m : ModeArgs) (wait : Bool) (s t : State) (r : Response),
    exec (.init m wait) s = .next t → t.responses = s.responses ++ [r] →
    r.status ∈ [Status.ok, .timeout, .invalidMeasurementMode, .unexpectedHardwareId, .modeTransitionFailed,
      .transportError, .readFailed] ∧
    (r.status = .invalidMeasurementMode → t.regs = s.regs ∧ t.trace = s.trace) ∧
    (r.status ≠ .invalidMeasurementMode → ∃ evs, t.trace = s.trace ++ evs ∧
      (t.regs.constructed = true ↔ r.status = .ok ∨ r.status = .timeout) ∧
      t.regs.calHum = 25600 ∧ t.regs.calTemp = 12800 ∧
      (t.regs.cacheValid = true ↔ r.status = .ok ∧ wait = true ∧ m.mode ≠ 0) ∧
      (t.regs.cacheValid = false → t.regs.cacheBytes = s.regs.cacheBytes) ∧
      t.regs.devmode = mirrorAfter evs ∧ (r.status = .modeTransitionFailed → t.regs.devmode = .boot) ∧
      (r.status ∈ [Status.ok, .timeout, .readFailed] → .memWrite 0x01 .w8 (measModeByte m) true ∈ evs) ∧
      (r.status ∈ [Status.unexpectedHardwareId, .modeTransitionFailed] →
        .memWrite 0x01 .w8 (measModeByte m) true ∉ evs) ∧
      (.memWrite 0x01 .w8 (measModeByte m) true ∈ evs →
        t.regs.measMode = m.mode ∧ t.regs.pollTimeoutValid = decide (m.mode ≠ 0) ∧
        t.regs.pollTimeout = (modeRegs s.regs m.mode).pollTimeout) ∧
      (.memWrite 0x01 .w8 (measModeByte m) true ∉ evs →
        t.regs.measMode = 0 ∧ t.regs.pollTimeoutValid = false ∧ t.regs.pollTimeout = s.regs.pollTimeout))

/-- R164, R166: SETMODE: its checks in order, the cache invalidated before the write is issued, and the mode
and its timeout changed only when the write succeeded. -/
def Obligations.SetmodeRule : Prop :=
  ∀ (m : ModeArgs) (s : State),
    (s.regs.constructed = false →
      exec (.setmode m) s = .next (s.respond (bare .notConstructed 0x11))) ∧
    (s.regs.constructed = true → 4 < m.mode.toNat →
      exec (.setmode m) s =
        .next (s.respond ⟨.invalidMeasurementMode, 0x11, m.mode.setWidth 16, 0, 0⟩)) ∧
    (s.regs.constructed = true → m.mode.toNat ≤ 4 → s.nextAnswer.ok = false →
      exec (.setmode m) s = .next
        (((s.writeFailed 0x01 .w8 (measModeByte m)).withRegs { s.regs with cacheValid := false }).respond (transportFailure 0x11 true 0x01))) ∧
    (s.regs.constructed = true → m.mode.toNat ≤ 4 → s.nextAnswer.ok = true →
      exec (.setmode m) s = .next
        (((s.wrote 0x01 .w8 (measModeByte m)).withRegs (modeRegs s.regs m.mode)).respond (okWith 0x11 0 0)))

/-- R170: SWRESET: the handle is dropped, the calibration kept, and one transaction writes 0x11E5728A, whose
bytes on the bus are 11 E5 72 8A; its failure is reported and changes nothing back. -/
def Obligations.SwresetRule : Prop :=
  (∀ s : State,
    let dropped : Regs :=
      { s.regs with
        constructed := false, devmode := .boot, measMode := 0, pollTimeoutValid := false, cacheValid := false }
    (s.nextAnswer.ok = true →
      exec .swreset s = .next
        (((s.wrote 0xFF .w32 0x11E5728A).withRegs dropped).respond (okWith 0x13 0 0))) ∧
    (s.nextAnswer.ok = false →
      exec .swreset s = .next
        (((s.writeFailed 0xFF .w32 0x11E5728A).withRegs dropped).respond
          (transportFailure 0x13 true 0xFF)))) ∧
  (BusEvent.memWrite 0xFF .w32 0x11E5728A true).driven = [0x11, 0xE5, 0x72, 0x8A]

/-- R167: the byte SETMODE and INIT write to MEAS_MODE is `0 ‖ mode ‖ drdy ‖ thr ‖ 0 ‖ 0`. -/
def Obligations.ModeBytePacking : Prop :=
  ∀ (m : ModeArgs), measModeByte m = ((modeByte m).setWidth 32 : Word) ∧
    (modeByte m).extractLsb' 4 3 = m.mode ∧ (modeByte m).getLsbD 3 = m.drdy ∧
    (modeByte m).getLsbD 2 = m.thr ∧ (modeByte m).getLsbD 7 = false ∧ (modeByte m).extractLsb' 0 2 = 0

/-! ### The result cache -/

/-- R191: POLLRDY: one status read, no sleep; the data-ready bit, and the mode mirror refreshed. -/
def Obligations.PollrdyRule : Prop :=
  ∀ s : State,
    (s.regs.constructed = false → exec .pollrdy s = .next (s.respond (bare .notConstructed 0x20))) ∧
    (s.regs.constructed = true → s.nextAnswer.ok = false →
      exec .pollrdy s = .next ((s.readFailed 0x00 .w8).respond (transportFailure 0x20 false 0x00))) ∧
    (s.regs.constructed = true → s.nextAnswer.ok = true →
      exec .pollrdy s = .next
        (((s.sawByte 0x00).withRegs (s.regs.mirror s.nextAnswer.b0)).respond
          (okWith 0x20 (if s.nextAnswer.b0.getLsbD 3 then 1 else 0) 0)))

/-- R193: the preconditions of the three result reads, on the mirrors: failing them is NoData, with no
transaction, no timer, and the cache untouched. -/
def Obligations.ResultReadsNeedAppAndMode : Prop :=
  ∀ (i : Instr) (s : State), i.opcode ∈ [Opcode.rdresult, .rdeco2, .rdetvoc] →
    s.regs.constructed = true → (s.regs.devmode ≠ .app ∨ s.regs.measMode = 0) →
      exec i s = .next (s.respond (bare .noData i.opcode.byte))

/-- R196: Fetch: a failed, null or short block leaves the cache as it was; exactly eight bytes fill it at once. -/
def Obligations.FetchRule : Prop :=
  ∀ (u : ResultUser) (s : State), s.pc = .rrFetch u →
    let op := (userOpcode u).byte
    (s.nextAnswer.ok = false →
      s.complete = (s.readBlock .fail).respond (transportFailure op false 0x02)) ∧
    (s.nextAnswer.ok = true → s.nextAnswer.block = none →
      s.complete = (s.readBlock .null).respond (bare .readFailed op)) ∧
    (∀ bs, s.nextAnswer.ok = true → s.nextAnswer.block = some bs → bs.length < 8 →
      s.complete = (s.readBlock (.bytes bs)).respond ⟨.readFailed, op, BitVec.ofNat 16 bs.length, 0, 0⟩) ∧
    (∀ b0 b1 b2 b3 b4 b5 b6 b7, s.nextAnswer.ok = true →
      s.nextAnswer.block = some [b0, b1, b2, b3, b4, b5, b6, b7] →
      s.complete =
        (((s.readBlock (.bytes [b0, b1, b2, b3, b4, b5, b6, b7])).withRegs
            { s.regs with
              cacheBytes := ⟨b0, b1, b2, b3, b4, b5, b6, b7⟩, cacheValid := true
              constructed := if u = ResultUser.init then true else s.regs.constructed }).respond
          (blockResponse u ⟨b0, b1, b2, b3, b4, b5, b6, b7⟩)))

/-- R192, R196, R200, R201: with `wait = 0` each result read is the fetch and nothing else, exactly one block
read, even if no sample is ready: whatever that read brings is answered by the rule of the fetch (`FetchRule`: a
failed read TransportError, a null or short block ReadFailed with its count), and eight bytes by each read's own
projection of them. -/
def Obligations.ImmediateReadsReturnBlock : Prop :=
  ∀ s : State, s.regs.constructed = true → s.regs.devmode = .app → s.regs.measMode ≠ 0 →
    (exec (.rdresult .immediate) s = .next (s.goto (.rrFetch .result)).complete ∧
      exec (.rdeco2 .immediate) s = .next (s.goto (.rrFetch .eco2)).complete ∧
      exec (.rdetvoc .immediate) s = .next (s.goto (.rrFetch .etvoc)).complete) ∧
    (s.nextAnswer.ok = false →
      exec (.rdresult .immediate) s =
        .next ((s.readBlock .fail).respond (transportFailure 0x21 false 0x02)) ∧
      exec (.rdeco2 .immediate) s =
        .next ((s.readBlock .fail).respond (transportFailure 0x22 false 0x02)) ∧
      exec (.rdetvoc .immediate) s =
        .next ((s.readBlock .fail).respond (transportFailure 0x23 false 0x02))) ∧
    (s.nextAnswer.ok = true → s.nextAnswer.block = none →
      exec (.rdresult .immediate) s = .next ((s.readBlock .null).respond ⟨.readFailed, 0x21, 0, 0, 0⟩) ∧
      exec (.rdeco2 .immediate) s = .next ((s.readBlock .null).respond ⟨.readFailed, 0x22, 0, 0, 0⟩) ∧
      exec (.rdetvoc .immediate) s = .next ((s.readBlock .null).respond ⟨.readFailed, 0x23, 0, 0, 0⟩)) ∧
    (∀ bs : List Byte, s.nextAnswer.ok = true → s.nextAnswer.block = some bs → bs.length < 8 →
      exec (.rdresult .immediate) s =
        .next ((s.readBlock (.bytes bs)).respond ⟨.readFailed, 0x21, BitVec.ofNat 16 bs.length, 0, 0⟩) ∧
      exec (.rdeco2 .immediate) s =
        .next ((s.readBlock (.bytes bs)).respond ⟨.readFailed, 0x22, BitVec.ofNat 16 bs.length, 0, 0⟩) ∧
      exec (.rdetvoc .immediate) s =
        .next ((s.readBlock (.bytes bs)).respond ⟨.readFailed, 0x23, BitVec.ofNat 16 bs.length, 0, 0⟩)) ∧
    (∀ b0 b1 b2 b3 b4 b5 b6 b7 : Byte, s.nextAnswer.ok = true →
      s.nextAnswer.block = some [b0, b1, b2, b3, b4, b5, b6, b7] →
      let b : ResultBlock := ⟨b0, b1, b2, b3, b4, b5, b6, b7⟩
      let filled :=
        (s.readBlock (.bytes [b0, b1, b2, b3, b4, b5, b6, b7])).withRegs
          { s.regs with cacheBytes := b, cacheValid := true }
      exec (.rdresult .immediate) s = .next (filled.respond (blockResponse .result b)) ∧
      exec (.rdeco2 .immediate) s = .next (filled.respond (blockResponse .eco2 b)) ∧
      exec (.rdetvoc .immediate) s = .next (filled.respond (blockResponse .etvoc b)))

/-- R192, R194, R195: with `wait = 1` each result read polls from `t0 = Now()`, with the stored derived timeout
or the operand. -/
def Obligations.WaitingReadsPoll : Prop :=
  ∀ (s : State) (ms : Word),
    s.regs.constructed = true → s.regs.devmode = .app → s.regs.measMode ≠ 0 →
    let polling (u : ResultUser) (T : Word) : State := s.goto (.rrPoll u s.now T.toNat)
    exec (.rdresult .derived) s = .next (polling .result s.regs.pollTimeout).complete ∧
    exec (.rdresult (.explicit ms)) s = .next (polling .result ms).complete ∧
    exec (.rdeco2 .derived) s = .next (polling .eco2 s.regs.pollTimeout).complete ∧
    exec (.rdeco2 (.explicit ms)) s = .next (polling .eco2 ms).complete ∧
    exec (.rdetvoc .derived) s = .next (polling .etvoc s.regs.pollTimeout).complete ∧
    exec (.rdetvoc (.explicit ms)) s = .next (polling .etvoc ms).complete

/-- R194: the poll loop starts with `t0 = Now()`, and one turn of it is status read, mirror, ready test,
deadline test, sleep of at least 250 ms. -/
def Obligations.PollLoopTurn : Prop :=
  (∀ (u : ResultUser) (T : Nat) (s : State), s.startPoll u T = s.goto (.rrPoll u s.now T)) ∧
  ∀ (u : ResultUser) (t0 T : Nat) (s : State), s.pc = .rrPoll u t0 T →
    let seen := (s.sawByte 0x00).withRegs (s.regs.mirror s.nextAnswer.b0)
    (s.nextAnswer.ok = false →
      s.complete =
        (s.readFailed 0x00 .w8).respond (transportFailure (userOpcode u).byte false 0x00)) ∧
    (s.nextAnswer.ok = true → s.nextAnswer.b0.getLsbD 3 = true →
      s.complete = (seen.goto (.rrFetch u)).complete) ∧
    (s.nextAnswer.ok = true → s.nextAnswer.b0.getLsbD 3 = false → seen.now - t0 ≥ T →
      s.complete =
        (seen.withRegs { seen.regs with
            constructed := if u = ResultUser.init then true else s.regs.constructed }).respond
          (bare .timeout (userOpcode u).byte)) ∧
    (s.nextAnswer.ok = true → s.nextAnswer.b0.getLsbD 3 = false → seen.now - t0 < T →
      s.complete = ((seen.event (.sleep 250) 250).goto (.rrPoll u t0 T)).complete)

/-- R204: a poll loop with timeout `T` makes at most `ceil(T / 250) + 1` status reads and at most `ceil(T / 250)`
sleeps, and ends, whatever the environment answers; and Timeout is never raised before `T` ms have passed. That it
ends rests on log entry 7 (PRESUMED: every transaction and sleep returns; R330, U17). -/
def Obligations.PollLoopBounded : Prop :=
  ∀ (u : ResultUser) (T : Nat) (s : State), s.pc = .rrPoll u s.now T →
    ∃ evs r, s.complete.pc = .idle ∧ s.complete.trace = s.trace ++ evs ∧
      s.complete.responses = s.responses ++ [r] ∧
      evs.countP BusEvent.isStatusRead ≤ (T + 249) / 250 + 1 ∧
      evs.countP BusEvent.isSleep ≤ (T + 249) / 250 ∧
      (r.status = .timeout → s.now + T ≤ s.complete.now)

/-- R192, R25: on every status other than OK a result read leaves every register as it was, but for the mode
mirror its polls have refreshed; the cache in particular. -/
def Obligations.FailedReadsKeepCache : Prop :=
  ∀ (i : Instr) (s t : State) (r : Response), i.opcode ∈ [Opcode.rdresult, .rdeco2, .rdetvoc] →
    exec i s = .next t → t.responses = s.responses ++ [r] → r.status ≠ .ok →
      t.regs = { s.regs with devmode := t.regs.devmode }

/-! ### Adjunct commands -/

/-- R231, R233: SETCAL: its checks in order, the clamps, the bound on the temperature half, the registers
written before the one packed write. -/
def Obligations.SetcalRule : Prop :=
  ∀ (hum temp : Option Word) (s : State),
    let h0 : Int := (match hum with | some q => q | none => s.regs.calHum).toInt
    let t0 : Int := (match temp with | some q => q | none => s.regs.calTemp).toInt
    let h := max 0 (min 51200 h0)
    let t := max (-12800) t0
    let word := BitVec.ofInt 32 (h * 65536 + (t + 12800))
    let stored : Regs := { s.regs with calHum := BitVec.ofInt 32 h, calTemp := BitVec.ofInt 32 t }
    (s.regs.constructed = false →
      exec (.setcal hum temp) s = .next (s.respond (bare .notConstructed 0x30))) ∧
    (s.regs.constructed = true → s.regs.devmode ≠ .app →
      exec (.setcal hum temp) s = .next (s.respond (bare .noData 0x30))) ∧
    (s.regs.constructed = true → s.regs.devmode = .app → 65535 < t + 12800 →
      exec (.setcal hum temp) s =
        .next (s.respond ⟨.invalidFieldValue, 0x30, 0, BitVec.ofInt 32 (t + 12800), 0⟩)) ∧
    (s.regs.constructed = true → s.regs.devmode = .app → t + 12800 ≤ 65535 → s.nextAnswer.ok = true →
      exec (.setcal hum temp) s = .next
        (((s.wrote 0x05 .w32 word).withRegs stored).respond (okWith 0x30 0 0))) ∧
    (s.regs.constructed = true → s.regs.devmode = .app → t + 12800 ≤ 65535 → s.nextAnswer.ok = false →
      exec (.setcal hum temp) s = .next
        (((s.writeFailed 0x05 .w32 word).withRegs stored).respond (transportFailure 0x30 true 0x05)))

/-- R232: the encodings D0 fixes, in the operand format. -/
def Obligations.CalibrationEncodings : Prop :=
  ∀ r : Regs,
    let rawTemp (q : Word) : Int := rawTemperature (calibrationTemperature (some q) r)
    let rawHum (q : Word) : Int := calibrationHumidity (some q) r
    rawTemp (BitVec.ofInt 32 (-12800)) = 0 ∧ rawTemp 12800 = 25600 ∧ rawHum 0 = 0 ∧ rawHum 51200 = 51200 ∧
      rawTemp (BitVec.ofInt 32 (-20480)) = 0 ∧ rawHum 61440 = 51200 ∧ rawHum (BitVec.ofInt 32 (-512)) = 0

/-- R238: GETBASE: one two-byte read of BASELINE, its bytes returned as they come. -/
def Obligations.GetbaseRule : Prop :=
  ∀ s : State,
    (s.regs.constructed = false → exec .getbase s = .next (s.respond (bare .notConstructed 0x31))) ∧
    (s.regs.constructed = true → s.nextAnswer.ok = false →
      exec .getbase s = .next ((s.readFailed 0x11 .w16).respond (transportFailure 0x31 false 0x11))) ∧
    (s.regs.constructed = true → s.nextAnswer.ok = true →
      exec .getbase s = .next
        ((s.sawHalf 0x11).respond
          (okWith 0x31 (BitVec.ofNat 32 (s.nextAnswer.b0.toNat * 256 + s.nextAnswer.b1.toNat)) 0)))

/-- R239: SETBASE: one two-byte write of BASELINE, verbatim, with no probe read. -/
def Obligations.SetbaseRule : Prop :=
  ∀ (base : Half) (s : State),
    (s.regs.constructed = false →
      exec (.setbase base) s = .next (s.respond (bare .notConstructed 0x32))) ∧
    (s.regs.constructed = true → s.nextAnswer.ok = false →
      exec (.setbase base) s = .next
        ((s.writeFailed 0x11 .w16 (base.setWidth 32)).respond (transportFailure 0x32 true 0x11))) ∧
    (s.regs.constructed = true → s.nextAnswer.ok = true →
      exec (.setbase base) s = .next
        ((s.wrote 0x11 .w16 (base.setWidth 32)).respond (okWith 0x32 0 0)))

/-- R242: DECODEERR: `F = bitmask[7:2]` in any state, no transaction, no state change; which bit of
`F` is which flag; the ordered set of flags, highest bit first, determines `F`. -/
def Obligations.DecodeerrRule : Prop :=
  (∀ (e : Byte) (s : State),
    exec (.decodeerr e) s = .next (s.respond (okWith 0x40 (BitVec.ofNat 32 (e.toNat / 4)) 0))) ∧
  (∀ e : Byte, flagVector e = e.extractLsb' 2 6 ∧
    (.writeInvalid ∈ errorFlags e ↔ (flagVector e).getLsbD 5 = true) ∧
    (.readInvalid ∈ errorFlags e ↔ (flagVector e).getLsbD 4 = true) ∧
    (.modeInvalid ∈ errorFlags e ↔ (flagVector e).getLsbD 3 = true) ∧
    (.maxResistance ∈ errorFlags e ↔ (flagVector e).getLsbD 2 = true) ∧
    (.heaterFault ∈ errorFlags e ↔ (flagVector e).getLsbD 1 = true) ∧
    (.heaterSupply ∈ errorFlags e ↔ (flagVector e).getLsbD 0 = true)) ∧
  (∀ e : Byte, (errorFlags e).Sublist
    [.writeInvalid, .readInvalid, .modeInvalid, .maxResistance, .heaterFault, .heaterSupply]) ∧
  (∀ e e' : Byte, errorFlags e = errorFlags e' → flagVector e = flagVector e')

/-- R246: DUMPSTATUS: the three reads in order, the mode mirror, and the error byte of the cache with its valid
flag; the first failed read ends it. -/
def Obligations.DumpstatusRule : Prop :=
  ∀ s : State,
    let seen := (s.sawByte 0x00).withRegs (s.regs.mirror s.nextAnswer.b0)
    let based := seen.sawHalf 0x11
    (s.regs.constructed = false → exec .dumpstatus s = .next (s.respond (bare .notConstructed 0x41))) ∧
    (s.regs.constructed = true → s.nextAnswer.ok = false →
      exec .dumpstatus s = .next ((s.readFailed 0x00 .w8).respond (transportFailure 0x41 false 0x00))) ∧
    (s.regs.constructed = true → s.nextAnswer.ok = true → seen.nextAnswer.ok = false →
      exec .dumpstatus s = .next
        ((seen.readFailed 0x11 .w16).respond (transportFailure 0x41 false 0x11))) ∧
    (s.regs.constructed = true → s.nextAnswer.ok = true → seen.nextAnswer.ok = true →
      based.nextAnswer.ok = false →
      exec .dumpstatus s = .next
        ((based.readFailed 0x20 .w8).respond (transportFailure 0x41 false 0x20))) ∧
    (s.regs.constructed = true → s.nextAnswer.ok = true → seen.nextAnswer.ok = true →
      based.nextAnswer.ok = true →
      exec .dumpstatus s = .next
        ((based.sawByte 0x20).respond
          (okWith 0x41
            (s.nextAnswer.b0 ++ based.nextAnswer.b0 ++ seen.nextAnswer.b0 ++ seen.nextAnswer.b1)
            (if s.regs.cacheValid then BitVec.ofNat 32 (256 + s.regs.cacheBytes.b5.toNat) else 0))))

/-! ### The host watches -/

/-- R6, R30, R31, R280: a host that looks at the outputs while a command is in progress sees `busy = 1` and the
cache, and nothing is lost by it: the block takes the one micro-step of its state (exactly one transaction or
sleep), into a state that follows it in the list of R30 with no response yet, or to IDLE with exactly one response;
the cache outputs change only by a block read of exactly eight bytes, all of them at once, or become invalid by
INIT's mode write (R164). The order "look, then micro-step" is the model's (log entry 2). -/
def Obligations.WatchedMicroStep : Prop :=
  ∀ (s : State) (rest : List HostInput), s.pc ≠ .idle → s.inputs = .observe :: rest →
    ∃ t e, step s = .next t ∧ t.inputs = rest ∧ t.trace = s.trace ++ [e] ∧
      t.observed = s.observed ++ [⟨true, if s.regs.cacheValid then some s.regs.cacheBytes else none⟩] ∧
      ((s.pc.followedBy t.pc = true ∧ t.pc ≠ .idle ∧ t.responses = s.responses) ∨
        (t.pc = .idle ∧ ∃ r, t.responses = s.responses ++ [r])) ∧
      ((t.regs.cacheBytes = s.regs.cacheBytes ∧ t.regs.cacheValid = s.regs.cacheValid) ∨
        (t.regs.cacheValid = true ∧ e = .memReadBlock 0x02 8 (.bytes
          [t.regs.cacheBytes.b0, t.regs.cacheBytes.b1, t.regs.cacheBytes.b2, t.regs.cacheBytes.b3,
            t.regs.cacheBytes.b4, t.regs.cacheBytes.b5, t.regs.cacheBytes.b6, t.regs.cacheBytes.b7])) ∨
        (t.regs.cacheBytes = s.regs.cacheBytes ∧ t.regs.cacheValid = false ∧
          ∃ m wait, s.pc = .inSetmode m wait))

/-- R6, R31, R280: watching changes nothing: a command the host presents and then looks at `n` times has, on the
block's side, the same result as the command it does not watch, and each look is one entry of `observed`; the looks
show `busy = 1` from the acceptance to the response and `busy = 0` after it. -/
def Obligations.WatchedCommandIsTheSame : Prop :=
  ∀ (n : Nat) (s t u : State) (w : Command) (rest : List HostInput) (i : Instr),
    s.pc = .idle → s.inputs = .command w :: (List.replicate n .observe ++ rest) → decode w = .ok i →
    steps (n + 1) s = .next t → exec i s = .next u →
      t.complete.blockSide = u.blockSide ∧ t.inputs = rest ∧
      ∃ obs k, t.observed = s.observed ++ obs ∧ k ≤ n ∧
        obs.map Outputs.busy = List.replicate k true ++ List.replicate (n - k) false ∧
        (t.pc ≠ .idle → k = n ∧ t.responses = s.responses) ∧
        (t.pc = .idle → ∃ r, t.responses = s.responses ++ [r])

/-- R30: "accepting it moves `pc` to the first state of that command", where the checks made in that transition
pass; no acceptance issues a transaction or sleeps; and R164: a SETMODE and an INIT in progress show an invalid cache (log entry 18: what a rule does before its
first transaction is done at acceptance). -/
def Obligations.AcceptanceEntersFirstState : Prop :=
  ∀ s : State,
    (∀ i : Instr, (s.accept i).trace = s.trace) ∧
    (∀ f : RegisterField, (s.accept (.rdfield f)).pc = .rfRead f) ∧
    (∀ (f : RegisterField) (value : Word), f.wf = true → value &&& ~~~(f.mask >>> ctz f.mask) = 0 →
      (f.mask.toNat = 2 ^ f.width.bits - 1 → (s.accept (.wrfield f value)).pc = .wfWrite f value) ∧
      (f.mask.toNat ≠ 2 ^ f.width.bits - 1 → (s.accept (.wrfield f value)).pc = .wfProbe f value)) ∧
    (∀ (m : ModeArgs) (wait : Bool), m.mode.toNat ≤ 4 →
      (s.accept (.init m wait)).pc = .inHwid m wait ∧
      (s.accept (.init m wait)).outputs = ⟨true, none⟩) ∧
    (s.accept .swreset).pc = .srWrite ∧ (s.accept .swreset).outputs = ⟨true, none⟩ ∧
    (s.regs.constructed = true →
      (∀ m : ModeArgs, m.mode.toNat ≤ 4 → (s.accept (.setmode m)).pc = .smWrite m ∧
        (s.accept (.setmode m)).outputs = ⟨true, none⟩) ∧
      (s.accept .pollrdy).pc = .prRead ∧ (s.accept .getbase).pc = .gbRead ∧
      (∀ base : Half, (s.accept (.setbase base)).pc = .sbWrite base) ∧
      (s.accept .dumpstatus).pc = .dsStatus) ∧
    (s.regs.constructed = true → s.regs.devmode = .app →
      (∀ hum temp : Option Word,
        max (-12800) (match temp with | some q => q | none => s.regs.calTemp).toInt + 12800 ≤ 65535 →
        ∃ word, (s.accept (.setcal hum temp)).pc = .scWrite word) ∧
      (s.regs.measMode ≠ 0 → ∀ ms : Word,
        (s.accept (.rdresult .immediate)).pc = .rrFetch .result ∧
        (s.accept (.rdeco2 .immediate)).pc = .rrFetch .eco2 ∧
        (s.accept (.rdetvoc .immediate)).pc = .rrFetch .etvoc ∧
        (s.accept (.rdresult .derived)).pc = .rrPoll .result s.now s.regs.pollTimeout.toNat ∧
        (s.accept (.rdeco2 .derived)).pc = .rrPoll .eco2 s.now s.regs.pollTimeout.toNat ∧
        (s.accept (.rdetvoc .derived)).pc = .rrPoll .etvoc s.now s.regs.pollTimeout.toNat ∧
        (s.accept (.rdresult (.explicit ms))).pc = .rrPoll .result s.now ms.toNat ∧
        (s.accept (.rdeco2 (.explicit ms))).pc = .rrPoll .eco2 s.now ms.toNat ∧
        (s.accept (.rdetvoc (.explicit ms))).pc = .rrPoll .etvoc s.now ms.toNat))
end

