-- ==== Sys2Proof/Laws/Decode.lean ====
section
/-! SUPPORT. The fields of a command word and the word of its fields are each other's inverse, and how masks
act on fields. -/

namespace Sys2Proof

/-- The fields laid out by `toWord` are read back by `ofWord` (R90, R91). -/
@[simp] theorem CmdFields.ofWord_toWord (c : CmdFields) : CmdFields.ofWord c.toWord = c := by
  cases c
  simp only [CmdFields.ofWord, CmdFields.toWord, CmdFields.mk.injEq]
  refine ⟨?_, ?_, ?_, ?_, ?_, ?_, ?_, ?_, ?_, ?_, ?_, ?_, ?_, ?_⟩ <;>
    · simp (disch := decide) only [BitVec.extractLsb'_append_eq_of_le, BitVec.extractLsb'_append_eq_of_add_le]
      simp

/-- Every word is the word of its fields: the fields cover all 128 bits (R91). -/
@[simp] theorem CmdFields.toWord_ofWord (w : Command) : (CmdFields.ofWord w).toWord = w := by
  simp only [CmdFields.ofWord, CmdFields.toWord]
  repeat rw [BitVec.extractLsb'_append_extractLsb'_eq_extractLsb' (by rfl)]
  simp

/-- Masking a word masks its fields. -/
theorem CmdFields.toWord_and (c m : CmdFields) :
    c.toWord &&& m.toWord =
      CmdFields.toWord
        { op := c.op &&& m.op, a8 := c.a8 &&& m.a8, wcode := c.wcode &&& m.wcode, sgn := c.sgn &&& m.sgn,
          osup := c.osup &&& m.osup, offset := c.offset &&& m.offset, mode := c.mode &&& m.mode,
          drdy := c.drdy &&& m.drdy, thr := c.thr &&& m.thr, b1 := c.b1 &&& m.b1, b0 := c.b0 &&& m.b0,
          w1 := c.w1 &&& m.w1, w2 := c.w2 &&& m.w2, w3 := c.w3 &&& m.w3 } := by
  have h {v w : Nat} (x y : BitVec v) (p q r : BitVec w) (hr : p &&& q = r) :
      (x ++ p) &&& (y ++ q) = (x &&& y) ++ r := hr ▸ BitVec.and_append
  exact h _ _ _ _ _ <| h _ _ _ _ _ <| h _ _ _ _ _ <| h _ _ _ _ _ <| h _ _ _ _ _ <| h _ _ _ _ _ <|
    h _ _ _ _ _ <| h _ _ _ _ _ <| h _ _ _ _ _ <| h _ _ _ _ _ <| h _ _ _ _ _ <| h _ _ _ _ _ <|
    h _ _ _ _ _ rfl

/-- The bits each format fixes at 0, and the opcode, as fields (R92, R104). -/
def Format.maskFields : Format → CmdFields
  | .f => ⟨0xFF, 0, 0, 0, 0, 0, 7, 1, 1, 1, 1, 0, 0xFFFFFFFF, 0xFFFFFFFF⟩
  | .fw => ⟨0xFF, 0, 0, 0, 0, 0, 7, 1, 1, 1, 1, 0, 0, 0xFFFFFFFF⟩
  | .m => ⟨0xFF, 0xFF, 3, 1, 1, 31, 0, 0, 0, 1, 1, 0xFFFFFFFF, 0xFFFFFFFF, 0xFFFFFFFF⟩
  | .mi => ⟨0xFF, 0xFF, 3, 1, 1, 31, 0, 0, 0, 0, 1, 0xFFFFFFFF, 0xFFFFFFFF, 0xFFFFFFFF⟩
  | .r => ⟨0xFF, 0xFF, 3, 1, 1, 31, 7, 1, 1, 0, 0, 0xFFFFFFFF, 0, 0xFFFFFFFF⟩
  | .c => ⟨0xFF, 0xFF, 3, 1, 1, 31, 7, 1, 1, 0, 0, 0xFFFFFFFF, 0, 0⟩
  | .b => ⟨0xFF, 0xFF, 3, 1, 1, 31, 7, 1, 1, 1, 1, 0xFFFFFFFF, 0xFFFF0000, 0xFFFFFFFF⟩
  | .e => ⟨0xFF, 0, 3, 1, 1, 31, 7, 1, 1, 1, 1, 0xFFFFFFFF, 0xFFFFFFFF, 0xFFFFFFFF⟩
  | .z => ⟨0xFF, 0xFF, 3, 1, 1, 31, 7, 1, 1, 1, 1, 0xFFFFFFFF, 0xFFFFFFFF, 0xFFFFFFFF⟩

/-- The table's mask of a row is the mask of its format. -/
theorem Opcode.tableMask_eq (o : Opcode) : o.tableMask = o.format.maskFields.toWord := by
  cases o <;> decide

/-- The table's match of a row is its opcode with every other bit 0. -/
theorem Opcode.tableMatch_eq (o : Opcode) : o.tableMatch = (CmdFields.blank o).toWord := by
  cases o <;> decide

/-- Every opcode's byte names it (R93). -/
@[simp] theorem Opcode.ofByte?_byte (o : Opcode) : Opcode.ofByte? o.byte = some o := by
  cases o <;> decide

/-- A byte that names an opcode is its byte. -/
theorem Opcode.byte_of_ofByte? {b : Byte} {o : Opcode} (h : Opcode.ofByte? b = some o) : o.byte = b := by
  have := List.find?_some h
  simpa using this

end Sys2Proof
end

