-- ==== Sys2Proof/Laws/State.lean ====
section
/-! SUPPORT. One lemma per field per update of the state, and per register per update of the registers, so
that no later proof unfolds a record update. -/

namespace Sys2Proof.Machine

@[simp] theorem State.goto_regs (s : State) (p : Pc) : (s.goto p).regs = s.regs := rfl
@[simp] theorem State.goto_pc (s : State) (p : Pc) : (s.goto p).pc = p := rfl
@[simp] theorem State.goto_inputs (s : State) (p : Pc) : (s.goto p).inputs = s.inputs := rfl
@[simp] theorem State.goto_responses (s : State) (p : Pc) : (s.goto p).responses = s.responses := rfl
@[simp] theorem State.goto_observed (s : State) (p : Pc) : (s.goto p).observed = s.observed := rfl
@[simp] theorem State.goto_trace (s : State) (p : Pc) : (s.goto p).trace = s.trace := rfl
@[simp] theorem State.goto_answers (s : State) (p : Pc) : (s.goto p).answers = s.answers := rfl
@[simp] theorem State.goto_draws (s : State) (p : Pc) : (s.goto p).draws = s.draws := rfl
@[simp] theorem State.goto_now (s : State) (p : Pc) : (s.goto p).now = s.now := rfl

@[simp] theorem State.withRegs_regs (s : State) (r : Regs) : (s.withRegs r).regs = r := rfl
@[simp] theorem State.withRegs_pc (s : State) (r : Regs) : (s.withRegs r).pc = s.pc := rfl
@[simp] theorem State.withRegs_inputs (s : State) (r : Regs) : (s.withRegs r).inputs = s.inputs := rfl
@[simp] theorem State.withRegs_responses (s : State) (r : Regs) : (s.withRegs r).responses = s.responses := rfl
@[simp] theorem State.withRegs_observed (s : State) (r : Regs) : (s.withRegs r).observed = s.observed := rfl
@[simp] theorem State.withRegs_trace (s : State) (r : Regs) : (s.withRegs r).trace = s.trace := rfl
@[simp] theorem State.withRegs_answers (s : State) (r : Regs) : (s.withRegs r).answers = s.answers := rfl
@[simp] theorem State.withRegs_draws (s : State) (r : Regs) : (s.withRegs r).draws = s.draws := rfl
@[simp] theorem State.withRegs_now (s : State) (r : Regs) : (s.withRegs r).now = s.now := rfl

@[simp] theorem State.respond_regs (s : State) (r : Response) : (s.respond r).regs = s.regs := rfl
@[simp] theorem State.respond_pc (s : State) (r : Response) : (s.respond r).pc = .idle := rfl
@[simp] theorem State.respond_inputs (s : State) (r : Response) : (s.respond r).inputs = s.inputs := rfl
@[simp] theorem State.respond_responses (s : State) (r : Response) : (s.respond r).responses = s.responses ++ [r] := rfl
@[simp] theorem State.respond_observed (s : State) (r : Response) : (s.respond r).observed = s.observed := rfl
@[simp] theorem State.respond_trace (s : State) (r : Response) : (s.respond r).trace = s.trace := rfl
@[simp] theorem State.respond_answers (s : State) (r : Response) : (s.respond r).answers = s.answers := rfl
@[simp] theorem State.respond_draws (s : State) (r : Response) : (s.respond r).draws = s.draws := rfl
@[simp] theorem State.respond_now (s : State) (r : Response) : (s.respond r).now = s.now := rfl

@[simp] theorem State.event_regs (s : State) (e : BusEvent) (least : Nat) : (s.event e least).regs = s.regs := rfl
@[simp] theorem State.event_pc (s : State) (e : BusEvent) (least : Nat) : (s.event e least).pc = s.pc := rfl
@[simp] theorem State.event_inputs (s : State) (e : BusEvent) (least : Nat) : (s.event e least).inputs = s.inputs := rfl
@[simp] theorem State.event_responses (s : State) (e : BusEvent) (least : Nat) : (s.event e least).responses = s.responses := rfl
@[simp] theorem State.event_observed (s : State) (e : BusEvent) (least : Nat) : (s.event e least).observed = s.observed := rfl
@[simp] theorem State.event_trace (s : State) (e : BusEvent) (least : Nat) : (s.event e least).trace = s.trace ++ [e] := rfl
@[simp] theorem State.event_answers (s : State) (e : BusEvent) (least : Nat) : (s.event e least).answers = s.answers.tail := rfl
@[simp] theorem State.event_draws (s : State) (e : BusEvent) (least : Nat) : (s.event e least).draws = s.draws + 1 := rfl
@[simp] theorem State.event_now (s : State) (e : BusEvent) (least : Nat) : (s.event e least).now = s.now + least + s.nextAnswer.elapsed := rfl

@[simp] theorem State.withHost_regs (s : State) (ins : List HostInput) (obs : List Outputs) : (s.withHost ins obs).regs = s.regs := rfl
@[simp] theorem State.withHost_pc (s : State) (ins : List HostInput) (obs : List Outputs) : (s.withHost ins obs).pc = s.pc := rfl
@[simp] theorem State.withHost_inputs (s : State) (ins : List HostInput) (obs : List Outputs) : (s.withHost ins obs).inputs = ins := rfl
@[simp] theorem State.withHost_responses (s : State) (ins : List HostInput) (obs : List Outputs) : (s.withHost ins obs).responses = s.responses := rfl
@[simp] theorem State.withHost_observed (s : State) (ins : List HostInput) (obs : List Outputs) : (s.withHost ins obs).observed = obs := rfl
@[simp] theorem State.withHost_trace (s : State) (ins : List HostInput) (obs : List Outputs) : (s.withHost ins obs).trace = s.trace := rfl
@[simp] theorem State.withHost_answers (s : State) (ins : List HostInput) (obs : List Outputs) : (s.withHost ins obs).answers = s.answers := rfl
@[simp] theorem State.withHost_draws (s : State) (ins : List HostInput) (obs : List Outputs) : (s.withHost ins obs).draws = s.draws := rfl
@[simp] theorem State.withHost_now (s : State) (ins : List HostInput) (obs : List Outputs) : (s.withHost ins obs).now = s.now := rfl

@[simp] theorem State.present_regs (s : State) (w : Command) : (s.present w).regs = s.regs := rfl
@[simp] theorem State.present_pc (s : State) (w : Command) : (s.present w).pc = s.pc := rfl
@[simp] theorem State.present_inputs (s : State) (w : Command) : (s.present w).inputs = .command w :: s.inputs := rfl
@[simp] theorem State.present_responses (s : State) (w : Command) : (s.present w).responses = s.responses := rfl
@[simp] theorem State.present_observed (s : State) (w : Command) : (s.present w).observed = s.observed := rfl
@[simp] theorem State.present_trace (s : State) (w : Command) : (s.present w).trace = s.trace := rfl
@[simp] theorem State.present_answers (s : State) (w : Command) : (s.present w).answers = s.answers := rfl
@[simp] theorem State.present_draws (s : State) (w : Command) : (s.present w).draws = s.draws := rfl
@[simp] theorem State.present_now (s : State) (w : Command) : (s.present w).now = s.now := rfl

/-! The compound updates in terms of `goto`, `withRegs`, `event` and `respond`. -/

@[simp] theorem State.mirrorMode_eq (s : State) (st : Byte) :
    s.mirrorMode st = s.withRegs (s.regs.sampleMode st) := rfl
@[simp] theorem State.fillCache_eq (s : State) (b : ResultBlock) :
    s.fillCache b = s.withRegs (s.regs.fillCache b) := rfl
@[simp] theorem State.invalidateCache_eq (s : State) :
    s.invalidateCache = s.withRegs s.regs.dropCache := rfl
@[simp] theorem State.construct_eq (s : State) : s.construct = s.withRegs s.regs.construct := rfl
@[simp] theorem State.hostReset_eq (s : State) : s.hostReset = (s.withRegs .reset).goto .idle := rfl
@[simp] theorem State.startPoll_eq (s : State) (u : ResultUser) (T : Nat) :
    s.startPoll u T = s.goto (.rrPoll u s.now T) := rfl
@[simp] theorem State.withInputs_eq (s : State) (ins : List HostInput) :
    s.withInputs ins = s.withHost ins s.observed := rfl
@[simp] theorem State.observe_eq (s : State) : s.observe = s.withHost s.inputs (s.observed ++ [s.outputs]) := rfl
@[simp] theorem State.sleep_eq (s : State) (d : Nat) : s.sleep d = s.event (.sleep d) d := rfl

/-! The normal form of a run's states: events first, then one `withRegs`, then `goto` or `respond`, then one
`withHost`. -/

@[simp] theorem State.goto_goto (s : State) (p q : Pc) : (s.goto p).goto q = s.goto q := rfl
@[simp] theorem State.goto_event (s : State) (p : Pc) (e : BusEvent) (n : Nat) :
    (s.goto p).event e n = (s.event e n).goto p := rfl
@[simp] theorem State.goto_withRegs (s : State) (p : Pc) (r : Regs) :
    (s.goto p).withRegs r = (s.withRegs r).goto p := rfl
@[simp] theorem State.goto_respond (s : State) (p : Pc) (r : Response) : (s.goto p).respond r = s.respond r := rfl
@[simp] theorem State.withRegs_withRegs (s : State) (r q : Regs) : (s.withRegs r).withRegs q = s.withRegs q := rfl
@[simp] theorem State.withRegs_event (s : State) (r : Regs) (e : BusEvent) (n : Nat) :
    (s.withRegs r).event e n = (s.event e n).withRegs r := rfl
@[simp] theorem State.withHost_goto (s : State) (a : List HostInput) (b : List Outputs) (p : Pc) :
    (s.withHost a b).goto p = (s.goto p).withHost a b := rfl
@[simp] theorem State.withHost_event (s : State) (a : List HostInput) (b : List Outputs) (e : BusEvent) (n : Nat) :
    (s.withHost a b).event e n = (s.event e n).withHost a b := rfl
@[simp] theorem State.withHost_withRegs (s : State) (a : List HostInput) (b : List Outputs) (r : Regs) :
    (s.withHost a b).withRegs r = (s.withRegs r).withHost a b := rfl
@[simp] theorem State.withHost_respond (s : State) (a : List HostInput) (b : List Outputs) (r : Response) :
    (s.withHost a b).respond r = (s.respond r).withHost a b := rfl
@[simp] theorem State.withHost_withHost (s : State) (a c : List HostInput) (b d : List Outputs) :
    (s.withHost a b).withHost c d = s.withHost c d := rfl
@[simp] theorem State.withHost_self (s : State) : s.withHost s.inputs s.observed = s := rfl
@[simp] theorem State.nextAnswer_withHost (s : State) (a : List HostInput) (b : List Outputs) :
    (s.withHost a b).nextAnswer = s.nextAnswer := rfl
@[simp] theorem State.outputs_withHost (s : State) (a : List HostInput) (b : List Outputs) :
    (s.withHost a b).outputs = s.outputs := rfl
@[simp] theorem State.withRegs_self (s : State) : s.withRegs s.regs = s := rfl
@[simp] theorem State.nextAnswer_goto (s : State) (p : Pc) : (s.goto p).nextAnswer = s.nextAnswer := rfl
@[simp] theorem State.nextAnswer_withRegs (s : State) (r : Regs) : (s.withRegs r).nextAnswer = s.nextAnswer := rfl
@[simp] theorem State.nextAnswer_respond (s : State) (r : Response) :
    (s.respond r).nextAnswer = s.nextAnswer := rfl

@[simp] theorem Regs.sampleMode_constructed (r : Regs) (st : Byte) : (r.sampleMode st).constructed = r.constructed := rfl
@[simp] theorem Regs.sampleMode_devmode (r : Regs) (st : Byte) : (r.sampleMode st).devmode = deviceModeOf st := rfl
@[simp] theorem Regs.sampleMode_measMode (r : Regs) (st : Byte) : (r.sampleMode st).measMode = r.measMode := rfl
@[simp] theorem Regs.sampleMode_pollTimeoutValid (r : Regs) (st : Byte) : (r.sampleMode st).pollTimeoutValid = r.pollTimeoutValid := rfl
@[simp] theorem Regs.sampleMode_pollTimeout (r : Regs) (st : Byte) : (r.sampleMode st).pollTimeout = r.pollTimeout := rfl
@[simp] theorem Regs.sampleMode_cacheValid (r : Regs) (st : Byte) : (r.sampleMode st).cacheValid = r.cacheValid := rfl
@[simp] theorem Regs.sampleMode_cacheBytes (r : Regs) (st : Byte) : (r.sampleMode st).cacheBytes = r.cacheBytes := rfl
@[simp] theorem Regs.sampleMode_calHum (r : Regs) (st : Byte) : (r.sampleMode st).calHum = r.calHum := rfl
@[simp] theorem Regs.sampleMode_calTemp (r : Regs) (st : Byte) : (r.sampleMode st).calTemp = r.calTemp := rfl

@[simp] theorem Regs.fillCache_constructed (r : Regs) (b : ResultBlock) : (r.fillCache b).constructed = r.constructed := rfl
@[simp] theorem Regs.fillCache_devmode (r : Regs) (b : ResultBlock) : (r.fillCache b).devmode = r.devmode := rfl
@[simp] theorem Regs.fillCache_measMode (r : Regs) (b : ResultBlock) : (r.fillCache b).measMode = r.measMode := rfl
@[simp] theorem Regs.fillCache_pollTimeoutValid (r : Regs) (b : ResultBlock) : (r.fillCache b).pollTimeoutValid = r.pollTimeoutValid := rfl
@[simp] theorem Regs.fillCache_pollTimeout (r : Regs) (b : ResultBlock) : (r.fillCache b).pollTimeout = r.pollTimeout := rfl
@[simp] theorem Regs.fillCache_cacheValid (r : Regs) (b : ResultBlock) : (r.fillCache b).cacheValid = true := rfl
@[simp] theorem Regs.fillCache_cacheBytes (r : Regs) (b : ResultBlock) : (r.fillCache b).cacheBytes = b := rfl
@[simp] theorem Regs.fillCache_calHum (r : Regs) (b : ResultBlock) : (r.fillCache b).calHum = r.calHum := rfl
@[simp] theorem Regs.fillCache_calTemp (r : Regs) (b : ResultBlock) : (r.fillCache b).calTemp = r.calTemp := rfl

@[simp] theorem Regs.dropCache_constructed (r : Regs) : r.dropCache.constructed = r.constructed := rfl
@[simp] theorem Regs.dropCache_devmode (r : Regs) : r.dropCache.devmode = r.devmode := rfl
@[simp] theorem Regs.dropCache_measMode (r : Regs) : r.dropCache.measMode = r.measMode := rfl
@[simp] theorem Regs.dropCache_pollTimeoutValid (r : Regs) : r.dropCache.pollTimeoutValid = r.pollTimeoutValid := rfl
@[simp] theorem Regs.dropCache_pollTimeout (r : Regs) : r.dropCache.pollTimeout = r.pollTimeout := rfl
@[simp] theorem Regs.dropCache_cacheValid (r : Regs) : r.dropCache.cacheValid = false := rfl
@[simp] theorem Regs.dropCache_cacheBytes (r : Regs) : r.dropCache.cacheBytes = r.cacheBytes := rfl
@[simp] theorem Regs.dropCache_calHum (r : Regs) : r.dropCache.calHum = r.calHum := rfl
@[simp] theorem Regs.dropCache_calTemp (r : Regs) : r.dropCache.calTemp = r.calTemp := rfl

@[simp] theorem Regs.construct_constructed (r : Regs) : r.construct.constructed = true := rfl
@[simp] theorem Regs.construct_devmode (r : Regs) : r.construct.devmode = r.devmode := rfl
@[simp] theorem Regs.construct_measMode (r : Regs) : r.construct.measMode = r.measMode := rfl
@[simp] theorem Regs.construct_pollTimeoutValid (r : Regs) : r.construct.pollTimeoutValid = r.pollTimeoutValid := rfl
@[simp] theorem Regs.construct_pollTimeout (r : Regs) : r.construct.pollTimeout = r.pollTimeout := rfl
@[simp] theorem Regs.construct_cacheValid (r : Regs) : r.construct.cacheValid = r.cacheValid := rfl
@[simp] theorem Regs.construct_cacheBytes (r : Regs) : r.construct.cacheBytes = r.cacheBytes := rfl
@[simp] theorem Regs.construct_calHum (r : Regs) : r.construct.calHum = r.calHum := rfl
@[simp] theorem Regs.construct_calTemp (r : Regs) : r.construct.calTemp = r.calTemp := rfl

@[simp] theorem Regs.newHandle_constructed (r : Regs) : r.newHandle.constructed = false := rfl
@[simp] theorem Regs.newHandle_devmode (r : Regs) : r.newHandle.devmode = .boot := rfl
@[simp] theorem Regs.newHandle_measMode (r : Regs) : r.newHandle.measMode = 0 := rfl
@[simp] theorem Regs.newHandle_pollTimeoutValid (r : Regs) : r.newHandle.pollTimeoutValid = false := rfl
@[simp] theorem Regs.newHandle_pollTimeout (r : Regs) : r.newHandle.pollTimeout = r.pollTimeout := rfl
@[simp] theorem Regs.newHandle_cacheValid (r : Regs) : r.newHandle.cacheValid = false := rfl
@[simp] theorem Regs.newHandle_cacheBytes (r : Regs) : r.newHandle.cacheBytes = r.cacheBytes := rfl
@[simp] theorem Regs.newHandle_calHum (r : Regs) : r.newHandle.calHum = Config.calHumDefault := rfl
@[simp] theorem Regs.newHandle_calTemp (r : Regs) : r.newHandle.calTemp = Config.calTempDefault := rfl

@[simp] theorem Regs.dropHandle_constructed (r : Regs) : r.dropHandle.constructed = false := rfl
@[simp] theorem Regs.dropHandle_devmode (r : Regs) : r.dropHandle.devmode = .boot := rfl
@[simp] theorem Regs.dropHandle_measMode (r : Regs) : r.dropHandle.measMode = 0 := rfl
@[simp] theorem Regs.dropHandle_pollTimeoutValid (r : Regs) : r.dropHandle.pollTimeoutValid = false := rfl
@[simp] theorem Regs.dropHandle_pollTimeout (r : Regs) : r.dropHandle.pollTimeout = r.pollTimeout := rfl
@[simp] theorem Regs.dropHandle_cacheValid (r : Regs) : r.dropHandle.cacheValid = false := rfl
@[simp] theorem Regs.dropHandle_cacheBytes (r : Regs) : r.dropHandle.cacheBytes = r.cacheBytes := rfl
@[simp] theorem Regs.dropHandle_calHum (r : Regs) : r.dropHandle.calHum = r.calHum := rfl
@[simp] theorem Regs.dropHandle_calTemp (r : Regs) : r.dropHandle.calTemp = r.calTemp := rfl

@[simp] theorem Regs.withCalibration_constructed (r : Regs) (h t : Int) : (r.withCalibration h t).constructed = r.constructed := rfl
@[simp] theorem Regs.withCalibration_devmode (r : Regs) (h t : Int) : (r.withCalibration h t).devmode = r.devmode := rfl
@[simp] theorem Regs.withCalibration_measMode (r : Regs) (h t : Int) : (r.withCalibration h t).measMode = r.measMode := rfl
@[simp] theorem Regs.withCalibration_pollTimeoutValid (r : Regs) (h t : Int) : (r.withCalibration h t).pollTimeoutValid = r.pollTimeoutValid := rfl
@[simp] theorem Regs.withCalibration_pollTimeout (r : Regs) (h t : Int) : (r.withCalibration h t).pollTimeout = r.pollTimeout := rfl
@[simp] theorem Regs.withCalibration_cacheValid (r : Regs) (h t : Int) : (r.withCalibration h t).cacheValid = r.cacheValid := rfl
@[simp] theorem Regs.withCalibration_cacheBytes (r : Regs) (h t : Int) : (r.withCalibration h t).cacheBytes = r.cacheBytes := rfl
@[simp] theorem Regs.withCalibration_calHum (r : Regs) (h t : Int) : (r.withCalibration h t).calHum = BitVec.ofInt 32 h := rfl
@[simp] theorem Regs.withCalibration_calTemp (r : Regs) (h t : Int) : (r.withCalibration h t).calTemp = BitVec.ofInt 32 t := rfl

/-- The registers a mode write does not touch (R164). -/
theorem Regs.withMode_frame (r : Regs) (code : BitVec 3) :
    (r.withMode code).constructed = r.constructed ∧ (r.withMode code).devmode = r.devmode ∧
      (r.withMode code).cacheValid = r.cacheValid ∧ (r.withMode code).cacheBytes = r.cacheBytes ∧
      (r.withMode code).calHum = r.calHum ∧ (r.withMode code).calTemp = r.calTemp := by
  unfold Regs.withMode
  split <;> exact ⟨rfl, rfl, rfl, rfl, rfl, rfl⟩

@[simp] theorem Regs.withMode_measMode (r : Regs) (code : BitVec 3) : (r.withMode code).measMode = code := by
  unfold Regs.withMode
  split <;> rfl

@[simp] theorem Regs.withMode_constructed (r : Regs) (code : BitVec 3) :
    (r.withMode code).constructed = r.constructed := r.withMode_frame code |>.1

@[simp] theorem Regs.withMode_devmode (r : Regs) (code : BitVec 3) :
    (r.withMode code).devmode = r.devmode := r.withMode_frame code |>.2.1

@[simp] theorem Regs.withMode_cacheValid (r : Regs) (code : BitVec 3) :
    (r.withMode code).cacheValid = r.cacheValid := r.withMode_frame code |>.2.2.1

@[simp] theorem Regs.withMode_cacheBytes (r : Regs) (code : BitVec 3) :
    (r.withMode code).cacheBytes = r.cacheBytes := r.withMode_frame code |>.2.2.2.1

@[simp] theorem Regs.withMode_calHum (r : Regs) (code : BitVec 3) :
    (r.withMode code).calHum = r.calHum := r.withMode_frame code |>.2.2.2.2.1

@[simp] theorem Regs.withMode_calTemp (r : Regs) (code : BitVec 3) :
    (r.withMode code).calTemp = r.calTemp := r.withMode_frame code |>.2.2.2.2.2

/-- The timeout a mode write leaves (R164, R165). -/
@[simp] theorem Regs.withMode_pollTimeout (r : Regs) (code : BitVec 3) :
    (r.withMode code).pollTimeout = ((derivedTimeout code).map (BitVec.ofNat 32)).getD r.pollTimeout := by
  unfold Regs.withMode
  split <;> simp_all

@[simp] theorem Regs.withMode_pollTimeoutValid (r : Regs) (code : BitVec 3) :
    (r.withMode code).pollTimeoutValid = (derivedTimeout code).isSome := by
  unfold Regs.withMode
  split <;> simp_all

/-- The response and the failing end of a command, in terms of `respond`. -/
@[simp] theorem State.raise_eq (s : State) (op : Opcode) (e : Failure) :
    s.raise op e = s.respond (e.response op.byte) := rfl

@[simp] theorem State.returnOk_eq (s : State) (op : Opcode) (r1 r2 : Word) :
    s.returnOk op r1 r2 = s.respond (okResponse op.byte r1 r2) := rfl

end Sys2Proof.Machine
end

