-- ==== Sys2Proof/Laws/Sequencer.lean ====
section
/-! SUPPORT. What the port primitives can do, and the run of a command: every micro-step lowers the budget, so
`State.complete` runs any command to IDLE, one micro-step at a time. -/

namespace Sys2Proof.Machine

/-- A word read: with the transport's report, the value or the TransportError (R51). -/
theorem State.memRead_ok {s : State} (h : s.nextAnswer.ok = true) (op : Opcode) (a : Byte) (w : Width)
    (k : Word → State → State) :
    s.memRead op a w k =
      k (wordOf s.nextAnswer w) (s.event (.memRead a w (some (wordOf s.nextAnswer w))) 0) := by
  simp [State.memRead, h]

theorem State.memRead_fail {s : State} (h : s.nextAnswer.ok = false) (op : Opcode) (a : Byte) (w : Width)
    (k : Word → State → State) :
    s.memRead op a w k = (s.event (.memRead a w none) 0).raise op (.transportError false a) := by
  simp [State.memRead, h]

/-- A write, acknowledged or not (R52). -/
theorem State.memWrite_ok {s : State} (h : s.nextAnswer.ok = true) (op : Opcode) (a : Byte) (w : Width)
    (v : Word) (k : State → State) :
    s.memWrite op a w v k = k (s.event (.memWrite a w v true) 0) := by
  simp [State.memWrite, h]

theorem State.memWrite_fail {s : State} (h : s.nextAnswer.ok = false) (op : Opcode) (a : Byte) (w : Width)
    (v : Word) (k : State → State) :
    s.memWrite op a w v k =
      (s.event (.memWrite a w v false) 0).raise op (.transportError true a) := by
  simp [State.memWrite, h]

/-- The sequencer's status read (R22). -/
theorem State.readStatus_ok {s : State} (h : s.nextAnswer.ok = true) (op : Opcode)
    (k : Byte → State → State) :
    s.readStatus op k =
      k ((wordOf s.nextAnswer .w8).setWidth 8)
        ((s.event (.memRead Reg.status .w8 (some (wordOf s.nextAnswer .w8))) 0).mirrorMode
          ((wordOf s.nextAnswer .w8).setWidth 8)) := by
  simp [State.readStatus, State.memRead, h]

theorem State.readStatus_fail {s : State} (h : s.nextAnswer.ok = false) (op : Opcode)
    (k : Byte → State → State) :
    s.readStatus op k =
      (s.event (.memRead Reg.status .w8 none) 0).raise op (.transportError false Reg.status) := by
  simp [State.readStatus, State.memRead, h]

/-- The budget of a state at IDLE is 0. -/
theorem budget_of_idle {s : State} (h : s.pc = .idle) : budget s = 0 := by simp [budget, h]

theorem budget_respond (s : State) (r : Response) : budget (s.respond r) = 0 := rfl

/-- The poll loop's budget at its start is that of its timeout. -/
theorem budget_startPoll (s : State) (u : ResultUser) (T : Nat) :
    budget (s.startPoll u T) = pollBudget T := by
  simp [budget]

/-- Every micro-step lowers the budget (R30, R204). -/
theorem budget_microStep {s : State} (h : s.pc ≠ .idle) : budget (microStep s) < budget s := by
  cases hpc : s.pc with
  | idle => exact absurd hpc h
  | inSetmode m wait =>
    simp only [microStep, hpc, inSetmode, State.setModeCore, State.writeMode, State.memWrite]
    split
    · split <;> simp [budget, hpc, initTimeout]
    · simp [budget, hpc]
  | rrPoll u t0 T =>
    simp only [microStep, hpc, rrPoll, State.readStatus, State.memRead]
    split
    · split
      · simp [budget, hpc, pollBudget]; omega
      · split
        · cases u <;> simp [deadlinePassed, budget, hpc, pollBudget]
        · simp_all [budget, pollBudget]; omega
    · simp [budget, hpc, pollBudget]
  | rrSleep u t0 T =>
    simp only [microStep, hpc, rrSleep, State.sleep_eq, budget, pollBudget, State.goto_pc, State.goto_now,
      State.event_now, Config.pollIntervalMs]
    omega
  | rrFetch u =>
    simp only [microStep, hpc, rrFetch, State.fetchBlock]
    split
    · simp [budget, hpc]
    · simp [budget, hpc]
    · split
      · simp [budget, hpc]
      · cases u <;> simp [deliver, budget, hpc]
  | inHwid m wait =>
    simp only [microStep, hpc, inHwid, State.memRead]
    split
    · split <;> simp [budget, hpc, initTimeout]
    · simp [budget, hpc]
  | inStatus m wait =>
    simp only [microStep, hpc, inStatus, State.readStatus, State.memRead]
    split
    · split <;> simp [budget, hpc, initTimeout]
    · simp [budget, hpc]
  | inRecheck m wait =>
    simp only [microStep, hpc, inRecheck, State.readStatus, State.memRead]
    split
    · split <;> simp [budget, hpc, initTimeout]
    · simp [budget, hpc]
  | inSettle m wait => simp [microStep, hpc, inSettle, budget, initTimeout]
  | inAppstart m wait =>
    simp only [microStep, hpc, inAppstart, State.memWriteBlock]
    split <;> simp [budget, hpc, initTimeout]
  | rfRead f =>
    simp only [microStep, hpc, rfRead, State.memRead]
    split <;> simp [budget, hpc]
  | wfProbe f v =>
    simp only [microStep, hpc, wfProbe, State.memRead]
    split <;> simp [budget, hpc]
  | wfWrite f v =>
    simp only [microStep, hpc, wfWrite, State.memWrite]
    split <;> simp [budget, hpc]
  | smWrite m =>
    simp only [microStep, hpc, smWrite, State.writeMode, State.memWrite]
    split <;> simp [budget, hpc]
  | srWrite =>
    simp only [microStep, hpc, srWrite, State.memWrite]
    split <;> simp [budget, hpc]
  | prRead =>
    simp only [microStep, hpc, prRead, State.readStatus, State.memRead]
    split <;> simp [budget, hpc]
  | scWrite e =>
    simp only [microStep, hpc, scWrite, State.memWrite]
    split <;> simp [budget, hpc]
  | gbRead =>
    simp only [microStep, hpc, gbRead, State.memRead]
    split <;> simp [budget, hpc]
  | sbWrite b =>
    simp only [microStep, hpc, sbWrite, State.memWrite]
    split <;> simp [budget, hpc]
  | dsStatus =>
    simp only [microStep, hpc, dsStatus, State.readStatus, State.memRead]
    split <;> simp [budget, hpc]
  | dsBase st =>
    simp only [microStep, hpc, dsBase, State.memRead]
    split <;> simp [budget, hpc]
  | dsHwid st b =>
    simp only [microStep, hpc, dsHwid, State.memRead]
    split <;> simp [budget, hpc]

/-- At IDLE a run does nothing. -/
theorem runMicro_idle {s : State} (h : s.pc = .idle) (n : Nat) : runMicro n s = s := by
  cases n <;> simp [runMicro, h]

/-- Fuel beyond the budget changes nothing. -/
theorem runMicro_enough (n : Nat) :
    ∀ (m : Nat) (s : State), budget s ≤ n → budget s ≤ m → runMicro n s = runMicro m s := by
  induction n with
  | zero =>
    intro m s h _
    have hi : s.pc = .idle := by
      by_contra hne
      have := budget_microStep hne
      omega
    simp [runMicro_idle hi]
  | succ n ih =>
    intro m s hn hm
    by_cases hi : s.pc = .idle
    · simp [runMicro_idle hi]
    · have hlt := budget_microStep hi
      obtain ⟨m, rfl⟩ : ∃ k, m = k + 1 := ⟨m - 1, by omega⟩
      simp only [runMicro, if_neg hi]
      exact ih m _ (by omega) (by omega)

/-- A command at IDLE is over. -/
@[simp] theorem complete_idle {s : State} (h : s.pc = .idle) : s.complete = s := runMicro_idle h _

/-- A command in progress takes its next micro-step and runs on. -/
theorem complete_step {s : State} (h : s.pc ≠ .idle) : s.complete = (microStep s).complete := by
  have hlt := budget_microStep h
  obtain ⟨b, hb⟩ : ∃ b, budget s = b + 1 := ⟨budget s - 1, by omega⟩
  rw [State.complete, hb, runMicro, if_neg h]
  exact runMicro_enough _ _ _ (by omega) (Nat.le_refl _)

/-- What every micro-step keeps, the whole rest of a command keeps. -/
theorem complete_keeps {P : State → Prop} (hstep : ∀ s, s.pc ≠ .idle → P s → P (microStep s)) {s : State}
    (h : P s) : P s.complete := by
  suffices ∀ n, ∀ s, P s → P (runMicro n s) from this _ s h
  intro n
  induction n with
  | zero => intro s h; exact h
  | succ n ih =>
    intro s h
    rw [runMicro]
    split
    · exact h
    · rename_i hi
      exact ih _ (hstep s hi h)

/-- Induction over the rest of a command: it is enough to look at the micro-step that answers, and at one
micro-step before a run that has the property. -/
theorem busy_induction {P : State → Prop}
    (last : ∀ s, s.pc ≠ .idle → (microStep s).pc = .idle → P s)
    (more : ∀ s, s.pc ≠ .idle → (microStep s).pc ≠ .idle → P (microStep s) → P s) {s : State}
    (h : s.pc ≠ .idle) : P s := by
  suffices ∀ n s, budget s ≤ n → s.pc ≠ .idle → P s from this _ s (Nat.le_refl _) h
  intro n
  induction n with
  | zero =>
    intro s hb hs
    have := budget_microStep hs
    omega
  | succ n ih =>
    intro s hb hs
    have := budget_microStep hs
    by_cases hm : (microStep s).pc = .idle
    · exact last s hs hm
    · exact more s hs hm (ih _ (by omega) hm)

@[simp] theorem complete_respond (s : State) (r : Response) : (s.respond r).complete = s.respond r :=
  complete_idle rfl

/-! ### From each sequencer state (R30)

The micro-steps do not look at `pc`, so the run from a state is its micro-step and the run from there. -/

theorem complete_rfRead (f : RegisterField) (s : State) : (s.goto (.rfRead f)).complete = (rfRead f s).complete := by
  rw [complete_step (by simp)]
  rfl

theorem complete_wfProbe (f : RegisterField) (v : Word) (s : State) : (s.goto (.wfProbe f v)).complete = (wfProbe f v s).complete := by
  rw [complete_step (by simp)]
  rfl

theorem complete_wfWrite (f : RegisterField) (v : Word) (s : State) : (s.goto (.wfWrite f v)).complete = (wfWrite f v s).complete := by
  rw [complete_step (by simp)]
  rfl

theorem complete_inHwid (m : ModeArgs) (w : Bool) (s : State) : (s.goto (.inHwid m w)).complete = (inHwid m w s).complete := by
  rw [complete_step (by simp)]
  rfl

theorem complete_inStatus (m : ModeArgs) (w : Bool) (s : State) : (s.goto (.inStatus m w)).complete = (inStatus m w s).complete := by
  rw [complete_step (by simp)]
  rfl

theorem complete_inAppstart (m : ModeArgs) (w : Bool) (s : State) : (s.goto (.inAppstart m w)).complete = (inAppstart m w s).complete := by
  rw [complete_step (by simp)]
  rfl

theorem complete_inSettle (m : ModeArgs) (w : Bool) (s : State) : (s.goto (.inSettle m w)).complete = (inSettle m w s).complete := by
  rw [complete_step (by simp)]
  rfl

theorem complete_inRecheck (m : ModeArgs) (w : Bool) (s : State) : (s.goto (.inRecheck m w)).complete = (inRecheck m w s).complete := by
  rw [complete_step (by simp)]
  rfl

theorem complete_inSetmode (m : ModeArgs) (w : Bool) (s : State) : (s.goto (.inSetmode m w)).complete = (inSetmode m w s).complete := by
  rw [complete_step (by simp)]
  rfl

theorem complete_smWrite (m : ModeArgs) (s : State) : (s.goto (.smWrite m)).complete = (smWrite m s).complete := by
  rw [complete_step (by simp)]
  rfl

theorem complete_srWrite (s : State) : (s.goto .srWrite).complete = (srWrite s).complete := by
  rw [complete_step (by simp)]
  rfl

theorem complete_prRead (s : State) : (s.goto .prRead).complete = (prRead s).complete := by
  rw [complete_step (by simp)]
  rfl

theorem complete_rrPoll (u : ResultUser) (t0 T : Nat) (s : State) : (s.goto (.rrPoll u t0 T)).complete = (rrPoll u t0 T s).complete := by
  rw [complete_step (by simp)]
  rfl

theorem complete_rrSleep (u : ResultUser) (t0 T : Nat) (s : State) : (s.goto (.rrSleep u t0 T)).complete = (rrSleep u t0 T s).complete := by
  rw [complete_step (by simp)]
  rfl

theorem complete_rrFetch (u : ResultUser) (s : State) : (s.goto (.rrFetch u)).complete = (rrFetch u s).complete := by
  rw [complete_step (by simp)]
  cases u <;> rfl

theorem complete_scWrite (e : Word) (s : State) : (s.goto (.scWrite e)).complete = (scWrite e s).complete := by
  rw [complete_step (by simp)]
  rfl

theorem complete_gbRead (s : State) : (s.goto .gbRead).complete = (gbRead s).complete := by
  rw [complete_step (by simp)]
  rfl

theorem complete_sbWrite (b : Half) (s : State) : (s.goto (.sbWrite b)).complete = (sbWrite b s).complete := by
  rw [complete_step (by simp)]
  rfl

theorem complete_dsStatus (s : State) : (s.goto .dsStatus).complete = (dsStatus s).complete := by
  rw [complete_step (by simp)]
  rfl

theorem complete_dsBase (st : Byte) (s : State) : (s.goto (.dsBase st)).complete = (dsBase st s).complete := by
  rw [complete_step (by simp)]
  rfl

theorem complete_dsHwid (st : Byte) (b : Half) (s : State) : (s.goto (.dsHwid st b)).complete = (dsHwid st b s).complete := by
  rw [complete_step (by simp)]
  rfl

end Sys2Proof.Machine
end

