-- ==== Sys2Proof/Laws/Host.lean ====
section
/-! SUPPORT. The host's side of the machine: the block neither reads nor changes it while a command runs, so
a command that is watched and one that is not are the same command. -/

namespace Sys2Proof.Machine

/-- The meaning of a command is its acceptance and the run to its response (R30). -/
theorem exec_eq_accept (i : Instr) (s : State) : exec i s = .next (s.accept i).complete := by
  cases i <;> rfl

/-- A choice between two states leaves the host's side out of it. -/
theorem State.withHost_ite (c : Prop) [Decidable c] (s t : State) (a : List HostInput) (b : List Outputs) :
    (if c then s else t).withHost a b = if c then s.withHost a b else t.withHost a b := by
  split <;> rfl

/-- A micro-step neither reads nor changes the host's side. -/
theorem microStep_withHost (s : State) (a : List HostInput) (b : List Outputs) :
    microStep (s.withHost a b) = (microStep s).withHost a b := by
  cases hpc : s.pc
  case rrFetch u =>
    simp only [microStep, State.withHost_pc, hpc, rrFetch, State.fetchBlock, State.nextAnswer_withHost]
    split
    · rfl
    · rfl
    · split
      · rfl
      · cases u <;> rfl
  case rrPoll u t0 T =>
    cases u <;> simp only [microStep, State.withHost_pc, hpc, rrPoll, State.readStatus, State.memRead,
      deadlinePassed, State.withHost_ite] <;> rfl
  case idle => simp only [microStep, State.withHost_pc, hpc]
  all_goals
    simp only [microStep, State.withHost_pc, hpc, rfRead, wfProbe, wfWrite, inHwid, inStatus, inAppstart,
      inRecheck, inSetmode, smWrite, srWrite, prRead, scWrite, gbRead, sbWrite, dsStatus, dsBase, dsHwid,
      State.setModeCore, State.writeMode, State.readStatus, State.memRead, State.memWrite,
      State.memWriteBlock, State.withHost_ite]
    rfl

/-- Nor does the rest of a command. -/
theorem complete_withHost (s : State) (a : List HostInput) (b : List Outputs) :
    (s.withHost a b).complete = s.complete.withHost a b := by
  suffices ∀ n s, runMicro n (s.withHost a b) = (runMicro n s).withHost a b from this _ s
  intro n
  induction n with
  | zero => intro s; rfl
  | succ n ih =>
    intro s
    simp only [runMicro, State.withHost_pc, State.withHost_ite, microStep_withHost, ih]

/-- What every micro-step keeps of the host's side (R6). -/
@[simp] theorem microStep_inputs (s : State) : (microStep s).inputs = s.inputs := by
  have h := microStep_withHost s s.inputs s.observed
  rw [State.withHost_self] at h
  rw [h, State.withHost_inputs]

@[simp] theorem microStep_observed (s : State) : (microStep s).observed = s.observed := by
  have h := microStep_withHost s s.inputs s.observed
  rw [State.withHost_self] at h
  rw [h, State.withHost_observed]

@[simp] theorem complete_inputs (s : State) : s.complete.inputs = s.inputs :=
  complete_keeps (P := fun t => t.inputs = s.inputs) (fun t _ h => (microStep_inputs t).trans h) rfl

@[simp] theorem complete_observed (s : State) : s.complete.observed = s.observed :=
  complete_keeps (P := fun t => t.observed = s.observed) (fun t _ h => (microStep_observed t).trans h) rfl

/-- The acceptance of a command neither reads nor changes the host's side. -/
theorem accept_withHost (i : Instr) (s : State) (a : List HostInput) (b : List Outputs) :
    (s.withHost a b).accept i = (s.accept i).withHost a b := by
  cases i with
  | rdfield f => rfl
  | wrfield f v => simp only [State.accept, startWrfield, State.withHost_ite]; rfl
  | init m w => simp only [State.accept, startInit, State.withHost_ite]; rfl
  | setmode m => simp only [State.accept, startSetmode, State.withHandle, State.withHost_ite]; rfl
  | swreset => rfl
  | pollrdy => simp only [State.accept, startPollrdy, State.withHandle, State.withHost_ite]; rfl
  | rdresult w =>
    cases w <;> simp only [State.accept, startRdresult, startResult, State.withHandle, State.withHost_ite] <;> rfl
  | rdeco2 w =>
    cases w <;> simp only [State.accept, startRdeco2, startResult, State.withHandle, State.withHost_ite] <;> rfl
  | rdetvoc w =>
    cases w <;> simp only [State.accept, startRdetvoc, startResult, State.withHandle, State.withHost_ite] <;> rfl
  | setcal h t =>
    simp only [State.accept, startSetcal, sendCalibration, State.withHandle, State.withHost_ite]
    rfl
  | getbase => simp only [State.accept, startGetbase, State.withHandle, State.withHost_ite]; rfl
  | setbase base => simp only [State.accept, startSetbase, State.withHandle, State.withHost_ite]; rfl
  | decodeerr e => rfl
  | dumpstatus => simp only [State.accept, startDumpstatus, State.withHandle, State.withHost_ite]; rfl

@[simp] theorem accept_inputs (i : Instr) (s : State) : (s.accept i).inputs = s.inputs := by
  have h := accept_withHost i s s.inputs s.observed
  rw [State.withHost_self] at h
  rw [h, State.withHost_inputs]

@[simp] theorem accept_observed (i : Instr) (s : State) : (s.accept i).observed = s.observed := by
  have h := accept_withHost i s s.inputs s.observed
  rw [State.withHost_self] at h
  rw [h, State.withHost_observed]

/-! ### What a step is, input by input -/

/-- The host pulses the reset input (R300). -/
theorem step_reset {s : State} {rest : List HostInput} (h : s.inputs = .reset :: rest) :
    step s = .next (s.withInputs rest).hostReset := by
  simp only [step, State.nextStep, h]

/-- The host looks at the outputs (R31). -/
theorem step_observe {s : State} {rest : List HostInput} (h : s.inputs = .observe :: rest) :
    step s = .next (microStep (s.withInputs rest).observe) := by
  simp only [step, State.nextStep, h]

/-- The host waits while a command is in progress (R280). -/
theorem step_running {s : State} (hp : s.pc ≠ .idle) (h : s.inputs.head? ≠ some .reset)
    (h' : s.inputs.head? ≠ some .observe) : step s = .next s.complete := by
  cases hi : s.inputs with
  | nil => simp [step, State.nextStep, hi, hp]
  | cons x rest => cases x <;> simp_all [step, State.nextStep]

/-- The host presents a command that it does not watch (R30). -/
theorem step_command {s : State} {w : Command} {rest : List HostInput} {i : Instr} (hp : s.pc = .idle)
    (h : s.inputs = .command w :: rest) (hw : decode w = .ok i) (hr : rest.head? ≠ some .observe) :
    step s = exec i (s.withInputs rest) := by
  simp only [step, State.nextStep, h, hp, hw, if_true, if_neg hr]

/-- The host presents a command and watches it (R30, R31). -/
theorem step_watched {s : State} {w : Command} {rest : List HostInput} {i : Instr} (hp : s.pc = .idle)
    (h : s.inputs = .command w :: rest) (hw : decode w = .ok i) (hr : rest.head? = some .observe) :
    step s = .next ((s.withInputs rest).accept i) := by
  simp only [step, State.nextStep, h, hp, hw, if_true, if_pos hr]

/-- The host presents a word the decoder refuses (R267). -/
theorem step_illegal {s : State} {w : Command} {rest : List HostInput} {e : DecodeError} (hp : s.pc = .idle)
    (h : s.inputs = .command w :: rest) (hw : decode w = .error e) :
    step s = .next ((s.withInputs rest).refuseIllegal w) := by
  simp only [step, State.nextStep, h, hp, hw, if_true]

/-- A run takes one step and runs on. -/
theorem steps_succ {k : Nat} {s t : State} (h : step s = .next t) : steps (k + 1) s = steps k t := by
  simp only [steps, h]

/-- A run of no steps. -/
@[simp] theorem steps_zero (s : State) : steps 0 s = .next s := rfl

end Sys2Proof.Machine
end

