-- ==== Sys2Proof/Laws/MicroStep.lean ====
section
/-! SUPPORT. What a micro-step can do, said once: one event, and then either another state of the same command
or its response. The statements about every command follow from `microStep_cases` by induction on the budget. -/

namespace Sys2Proof.Machine

/-- The command a sequencer state belongs to (R30); IDLE belongs to none. -/
def Pc.opcode? : Pc → Option Opcode
  | .idle => none
  | .rfRead _ => some .rdfield
  | .wfProbe _ _ => some .wrfield
  | .wfWrite _ _ => some .wrfield
  | .inHwid _ _ => some .init
  | .inStatus _ _ => some .init
  | .inAppstart _ _ => some .init
  | .inSettle _ _ => some .init
  | .inRecheck _ _ => some .init
  | .inSetmode _ _ => some .init
  | .smWrite _ => some .setmode
  | .srWrite => some .swreset
  | .prRead => some .pollrdy
  | .rrPoll u _ _ => some (userOpcode u)
  | .rrSleep u _ _ => some (userOpcode u)
  | .rrFetch u => some (userOpcode u)
  | .scWrite _ => some .setcal
  | .gbRead => some .getbase
  | .sbWrite _ => some .setbase
  | .dsStatus => some .dumpstatus
  | .dsBase _ => some .dumpstatus
  | .dsHwid _ _ => some .dumpstatus

/-- R61: the transaction of a sequencer state; a sleeping state has none. -/
def Pc.access? : Pc → Option BusAccess
  | .idle => none
  | .rfRead f => some (false, f.addr, f.width.bits / 8)
  | .wfProbe f _ => some (false, f.addr, f.width.bits / 8)
  | .wfWrite f _ => some (true, f.addr, f.width.bits / 8)
  | .inHwid _ _ => some (false, 0x20, 1)
  | .inStatus _ _ => some (false, 0x00, 1)
  | .inAppstart _ _ => some (true, 0xF4, 0)
  | .inSettle _ _ => none
  | .inRecheck _ _ => some (false, 0x00, 1)
  | .inSetmode _ _ => some (true, 0x01, 1)
  | .smWrite _ => some (true, 0x01, 1)
  | .srWrite => some (true, 0xFF, 4)
  | .prRead => some (false, 0x00, 1)
  | .rrPoll _ _ _ => some (false, 0x00, 1)
  | .rrSleep _ _ _ => none
  | .rrFetch _ => some (false, 0x02, 8)
  | .scWrite _ => some (true, 0x05, 4)
  | .gbRead => some (false, 0x11, 2)
  | .sbWrite _ => some (true, 0x11, 2)
  | .dsStatus => some (false, 0x00, 1)
  | .dsBase _ => some (false, 0x11, 2)
  | .dsHwid _ _ => some (false, 0x20, 1)

/-- The response of a failed transaction, as R262 lays it out. -/
@[simp] theorem transportError_response (op : Byte) (wr : Bool) (a : Byte) :
    (Failure.transportError wr a).response op = transportFailure op wr a := by
  simp only [Failure.response, transportFailure, Failure.status, Failure.info, Failure.r1,
    Response.mk.injEq, true_and, and_true]
  revert a
  cases wr <;> decide

/-- What an event can tell of the transaction of its state, and when a response reports it failed (R55, R263). -/
structure Reported (p : Pc) (e : BusEvent) (q : Response) : Prop where
  op : ∃ o, p.opcode? = some o ∧ q.op = o.byte
  failed : e.failed = true → ∃ wr a n, p.access? = some (wr, a, n) ∧ q = transportFailure q.op wr a
  transport : q.status = .transportError → e.failed = true

/-- The registers a micro-step leaves: the calibration never changes here, and the cache is filled only by a
block read of eight bytes (R20, R25, R196). -/
structure Kept (r r' : Regs) (e : BusEvent) : Prop where
  calHum : r'.calHum = r.calHum
  calTemp : r'.calTemp = r.calTemp
  cache : (r'.cacheBytes = r.cacheBytes ∧ (r'.cacheValid = true → r.cacheValid = true)) ∨
    (r'.cacheValid = true ∧ e = .memReadBlock 0x02 8 (.bytes
      [r'.cacheBytes.b0, r'.cacheBytes.b1, r'.cacheBytes.b2, r'.cacheBytes.b3,
        r'.cacheBytes.b4, r'.cacheBytes.b5, r'.cacheBytes.b6, r'.cacheBytes.b7]))

/-- What a micro-step from `s` can do: one event, the one transaction of its state, and then either a later
state of the same command, after an event that did not fail, or the response. -/
def MicroOutcome (s t : State) : Prop :=
  ∃ e n r, e.access? = s.pc.access? ∧ Kept s.regs r e ∧
    ((∃ p, t = ((s.event e n).withRegs r).goto p ∧ s.pc.followedBy p = true ∧ p ≠ .idle ∧ p.opcode? = s.pc.opcode? ∧
      e.failed = false) ∨
      (∃ q, t = ((s.event e n).withRegs r).respond q ∧ Reported s.pc e q))

/-- Registers that differ in none of the kept ones. -/
theorem Kept.of_eq {r r' : Regs} (e : BusEvent) (hh : r'.calHum = r.calHum) (ht : r'.calTemp = r.calTemp)
    (hb : r'.cacheBytes = r.cacheBytes) (hv : r'.cacheValid = true → r.cacheValid = true) : Kept r r' e :=
  ⟨hh, ht, .inl ⟨hb, hv⟩⟩

/-- A failed transaction ends the command. -/
theorem MicroOutcome.fail {s t : State} {e : BusEvent} {r : Regs} {o : Opcode} {wr : Bool} {a : Byte} {n : Nat}
    (ht : t = ((s.event e 0).withRegs r).respond (transportFailure o.byte wr a))
    (he : e.access? = some (wr, a, n)) (hf : e.failed = true) (hk : Kept s.regs r e)
    (ha : s.pc.access? = some (wr, a, n)) (ho : s.pc.opcode? = some o) : MicroOutcome s t :=
  ⟨e, 0, r, he.trans ha.symm, hk,
    .inr ⟨_, ht, ⟨o, ho, rfl⟩, fun _ => ⟨wr, a, n, ha, rfl⟩, fun _ => hf⟩⟩

/-- The command answers after a transaction that did not fail. -/
theorem MicroOutcome.answer {s t : State} {e : BusEvent} {r : Regs} {q : Response} {o : Opcode} {n : Nat}
    (ht : t = ((s.event e n).withRegs r).respond q) (he : e.access? = s.pc.access?) (hf : e.failed = false)
    (hk : Kept s.regs r e) (ho : s.pc.opcode? = some o) (hq : q.op = o.byte)
    (hs : q.status ≠ .transportError) : MicroOutcome s t :=
  ⟨e, n, r, he, hk, .inr ⟨_, ht, ⟨o, ho, hq⟩, fun h => by simp [hf] at h, fun h => absurd h hs⟩⟩

/-- The command goes on after a transaction that did not fail. -/
theorem MicroOutcome.goes_on {s t : State} {e : BusEvent} {r : Regs} {p : Pc} {n : Nat}
    (ht : t = ((s.event e n).withRegs r).goto p) (he : e.access? = s.pc.access?) (hf : e.failed = false)
    (hk : Kept s.regs r e) (hp : p ≠ .idle) (ho : p.opcode? = s.pc.opcode?) (hn : s.pc.followedBy p = true) :
    MicroOutcome s t :=
  ⟨e, n, r, he, hk, .inl ⟨p, ht, hn, hp, ho, hf⟩⟩

/-- A result block holds exactly the eight bytes it was made of (R25, R196). -/
theorem blockOf?_some {bs : List Byte} {b : ResultBlock} (h : blockOf? bs = some b) :
    bs = [b.b0, b.b1, b.b2, b.b3, b.b4, b.b5, b.b6, b.b7] := by
  unfold blockOf? at h
  split at h
  · cases h
    rfl
  · cases h

/-- Every micro-step has one of these outcomes. -/
theorem microStep_cases {s : State} (h : s.pc ≠ .idle) : MicroOutcome s (microStep s) := by
  have keep : ∀ {e}, Kept s.regs s.regs e := .of_eq _ rfl rfl rfl id
  cases hpc : s.pc with
  | idle => exact absurd hpc h
  | rfRead f =>
    simp only [microStep, hpc, rfRead, State.memRead, State.raise_eq, transportError_response, State.returnOk_eq]
    split
    · exact .answer (r := s.regs) rfl (by rw [hpc]; rfl) rfl keep (by rw [hpc]; rfl) rfl nofun
    · exact .fail (r := s.regs) rfl rfl rfl keep (by rw [hpc]; rfl) (by rw [hpc]; rfl)
  | gbRead =>
    simp only [microStep, hpc, gbRead, State.memRead, State.raise_eq, transportError_response, State.returnOk_eq]
    split
    · exact .answer (r := s.regs) rfl (by rw [hpc]; rfl) rfl keep (by rw [hpc]; rfl) rfl nofun
    · exact .fail (r := s.regs) rfl rfl rfl keep (by rw [hpc]; rfl) (by rw [hpc]; rfl)
  | dsHwid st b =>
    simp only [microStep, hpc, dsHwid, State.memRead, State.raise_eq, transportError_response, State.returnOk_eq]
    split
    · exact .answer (r := s.regs) rfl (by rw [hpc]; rfl) rfl keep (by rw [hpc]; rfl) rfl nofun
    · exact .fail (r := s.regs) rfl rfl rfl keep (by rw [hpc]; rfl) (by rw [hpc]; rfl)
  | wfProbe f v =>
    simp only [microStep, hpc, wfProbe, State.memRead, State.raise_eq, transportError_response]
    split
    · exact .goes_on (r := s.regs) rfl (by rw [hpc]; rfl) rfl keep nofun (by rw [hpc]; rfl)
          (by rw [hpc]; simp_all [Pc.followedBy])
    · exact .fail (r := s.regs) rfl rfl rfl keep (by rw [hpc]; rfl) (by rw [hpc]; rfl)
  | dsBase st =>
    simp only [microStep, hpc, dsBase, State.memRead, State.raise_eq, transportError_response]
    split
    · exact .goes_on (r := s.regs) rfl (by rw [hpc]; rfl) rfl keep nofun (by rw [hpc]; rfl)
          (by rw [hpc]; simp_all [Pc.followedBy])
    · exact .fail (r := s.regs) rfl rfl rfl keep (by rw [hpc]; rfl) (by rw [hpc]; rfl)
  | wfWrite f v =>
    simp only [microStep, hpc, wfWrite, State.memWrite, State.raise_eq, transportError_response, State.returnOk_eq]
    split
    · exact .answer (r := s.regs) rfl (by rw [hpc]; rfl) rfl keep (by rw [hpc]; rfl) rfl nofun
    · exact .fail (r := s.regs) rfl rfl rfl keep (by rw [hpc]; rfl) (by rw [hpc]; rfl)
  | srWrite =>
    simp only [microStep, hpc, srWrite, State.memWrite, State.raise_eq, transportError_response, State.returnOk_eq]
    split
    · exact .answer (r := s.regs) rfl (by rw [hpc]; rfl) rfl keep (by rw [hpc]; rfl) rfl nofun
    · exact .fail (r := s.regs) rfl rfl rfl keep (by rw [hpc]; rfl) (by rw [hpc]; rfl)
  | scWrite e =>
    simp only [microStep, hpc, scWrite, State.memWrite, State.raise_eq, transportError_response, State.returnOk_eq]
    split
    · exact .answer (r := s.regs) rfl (by rw [hpc]; rfl) rfl keep (by rw [hpc]; rfl) rfl nofun
    · exact .fail (r := s.regs) rfl rfl rfl keep (by rw [hpc]; rfl) (by rw [hpc]; rfl)
  | sbWrite b =>
    simp only [microStep, hpc, sbWrite, State.memWrite, State.raise_eq, transportError_response, State.returnOk_eq]
    split
    · exact .answer (r := s.regs) rfl (by rw [hpc]; rfl) rfl keep (by rw [hpc]; rfl) rfl nofun
    · exact .fail (r := s.regs) rfl rfl rfl keep (by rw [hpc]; rfl) (by rw [hpc]; rfl)
  | inHwid m w =>
    simp only [microStep, hpc, inHwid, State.memRead, State.raise_eq, transportError_response]
    split
    · split
      · exact .goes_on (r := s.regs) rfl (by rw [hpc]; rfl) rfl keep nofun (by rw [hpc]; rfl)
            (by rw [hpc]; simp_all [Pc.followedBy])
      · exact .answer (r := s.regs) rfl (by rw [hpc]; rfl) rfl keep (by rw [hpc]; rfl) rfl nofun
    · exact .fail (r := s.regs) rfl rfl rfl keep (by rw [hpc]; rfl) (by rw [hpc]; rfl)
  | inStatus m w =>
    simp only [microStep, hpc, inStatus, State.readStatus, State.memRead, State.mirrorMode_eq, State.event_regs, State.withRegs_regs,
      Regs.sampleMode_devmode, State.raise_eq, transportError_response]
    split
    · refine iteInduction (fun _ => ?_) (fun _ => ?_)
      · exact .goes_on rfl (by rw [hpc]; rfl) rfl (.of_eq _ rfl rfl rfl id) nofun (by rw [hpc]; rfl)
            (by rw [hpc]; simp_all [Pc.followedBy])
      · exact .goes_on rfl (by rw [hpc]; rfl) rfl (.of_eq _ rfl rfl rfl id) nofun (by rw [hpc]; rfl)
            (by rw [hpc]; simp_all [Pc.followedBy])
    · exact .fail (r := s.regs) rfl rfl rfl keep (by rw [hpc]; rfl) (by rw [hpc]; rfl)
  | inRecheck m w =>
    simp only [microStep, hpc, inRecheck, State.readStatus, State.memRead, State.mirrorMode_eq, State.event_regs, State.withRegs_regs,
      Regs.sampleMode_devmode, State.raise_eq, transportError_response]
    split
    · refine iteInduction (fun _ => ?_) (fun _ => ?_)
      · exact .answer rfl (by rw [hpc]; rfl) rfl (.of_eq _ rfl rfl rfl id) (by rw [hpc]; rfl) rfl nofun
      · exact .goes_on rfl (by rw [hpc]; rfl) rfl (.of_eq _ rfl rfl rfl id) nofun (by rw [hpc]; rfl)
            (by rw [hpc]; simp_all [Pc.followedBy])
    · exact .fail (r := s.regs) rfl rfl rfl keep (by rw [hpc]; rfl) (by rw [hpc]; rfl)
  | inAppstart m w =>
    simp only [microStep, hpc, inAppstart, State.memWriteBlock, State.raise_eq, transportError_response]
    split
    · exact .goes_on (r := s.regs) rfl (by rw [hpc]; rfl) rfl keep nofun (by rw [hpc]; rfl)
          (by rw [hpc]; simp_all [Pc.followedBy])
    · exact .fail (r := s.regs) rfl rfl rfl keep (by rw [hpc]; rfl) (by rw [hpc]; rfl)
  | inSettle m w =>
    simp only [microStep, hpc, inSettle, State.sleep_eq]
    exact .goes_on (r := s.regs) rfl (by rw [hpc]; rfl) rfl keep nofun (by rw [hpc]; rfl)
          (by rw [hpc]; simp_all [Pc.followedBy])
  | rrSleep u t0 T =>
    simp only [microStep, hpc, rrSleep, State.sleep_eq]
    exact .goes_on (r := s.regs) rfl (by rw [hpc]; rfl) rfl keep nofun (by rw [hpc]; rfl)
          (by rw [hpc]; simp_all [Pc.followedBy])
  | prRead =>
    simp only [microStep, hpc, prRead, State.readStatus, State.memRead, State.mirrorMode_eq, State.event_regs, 
      State.raise_eq, transportError_response, State.returnOk_eq]
    split
    · exact .answer rfl (by rw [hpc]; rfl) rfl (.of_eq _ rfl rfl rfl id) (by rw [hpc]; rfl) rfl nofun
    · exact .fail (r := s.regs) rfl rfl rfl keep (by rw [hpc]; rfl) (by rw [hpc]; rfl)
  | dsStatus =>
    simp only [microStep, hpc, dsStatus, State.readStatus, State.memRead, State.mirrorMode_eq, State.event_regs, 
      State.raise_eq, transportError_response]
    split
    · exact .goes_on rfl (by rw [hpc]; rfl) rfl (.of_eq _ rfl rfl rfl id) nofun (by rw [hpc]; rfl)
          (by rw [hpc]; simp_all [Pc.followedBy])
    · exact .fail (r := s.regs) rfl rfl rfl keep (by rw [hpc]; rfl) (by rw [hpc]; rfl)
  | smWrite m =>
    simp only [microStep, hpc, smWrite, State.writeMode, State.memWrite, State.raise_eq, transportError_response,
      State.returnOk_eq]
    split
    · exact .answer rfl (by rw [hpc]; rfl) rfl (.of_eq _ (by simp) (by simp) (by simp) (by simp)) (by rw [hpc]; rfl) rfl nofun
    · exact .fail rfl rfl rfl (.of_eq _ (by simp) (by simp) (by simp) (by simp)) (by rw [hpc]; rfl) (by rw [hpc]; rfl)
  | inSetmode m w =>
    simp only [microStep, hpc, inSetmode, State.setModeCore, State.writeMode, State.memWrite, State.invalidateCache_eq, State.withRegs_event,
      State.withRegs_withRegs, State.nextAnswer_withRegs, State.withRegs_regs, State.raise_eq, transportError_response, State.returnOk_eq, State.construct_eq,
      State.startPoll_eq]
    split
    · split
      · exact .goes_on rfl (by rw [hpc]; rfl) rfl (.of_eq _ (by simp) (by simp) (by simp) (by simp)) nofun (by rw [hpc]; rfl)
            (by rw [hpc]; simp_all [Pc.followedBy])
      · exact .answer rfl (by rw [hpc]; rfl) rfl (.of_eq _ (by simp) (by simp) (by simp) (by simp)) (by rw [hpc]; rfl) rfl nofun
    · exact .fail rfl rfl rfl (.of_eq _ (by simp) (by simp) (by simp) (by simp)) (by rw [hpc]; rfl) (by rw [hpc]; rfl)
  | rrPoll u t0 T =>
    simp only [microStep, hpc, rrPoll, State.readStatus, State.memRead, State.mirrorMode_eq, State.event_regs, 
      State.raise_eq, transportError_response]
    split
    · split
      · exact .goes_on rfl (by rw [hpc]; rfl) rfl (.of_eq _ rfl rfl rfl id) nofun (by rw [hpc]; rfl)
            (by rw [hpc]; simp_all [Pc.followedBy])
      · refine iteInduction (fun _ => ?_) (fun _ => ?_)
        · cases u <;>
            exact .answer rfl (by rw [hpc]; rfl) rfl (.of_eq _ rfl rfl rfl id) (by rw [hpc]; rfl) rfl nofun
        · exact .goes_on rfl (by rw [hpc]; rfl) rfl (.of_eq _ rfl rfl rfl id) nofun (by rw [hpc]; rfl)
              (by rw [hpc]; simp_all [Pc.followedBy])
    · exact .fail (r := s.regs) rfl rfl rfl keep (by rw [hpc]; rfl) (by rw [hpc]; rfl)
  | rrFetch u =>
    simp only [microStep, hpc, rrFetch, State.fetchBlock, State.raise_eq, transportError_response,
      State.fillCache_eq, State.event_regs]
    cases blockOutcome s.nextAnswer 8 with
    | fail => exact .fail (r := s.regs) rfl rfl rfl keep (by rw [hpc]; rfl) (by rw [hpc]; rfl)
    | null => exact .answer (r := s.regs) rfl (by rw [hpc]; rfl) rfl keep (by rw [hpc]; rfl) rfl nofun
    | bytes bs =>
      cases hb : blockOf? bs with
      | none =>
        simp only [hb]
        exact .answer (r := s.regs) rfl (by rw [hpc]; rfl) rfl keep (by rw [hpc]; rfl) rfl nofun
      | some b =>
        have hk : Kept s.regs (s.regs.fillCache b) (.memReadBlock Reg.algResult 8 (.bytes bs)) :=
          ⟨rfl, rfl, .inr ⟨rfl, by rw [blockOf?_some hb]; rfl⟩⟩
        simp only [hb]
        cases u
        · exact .answer (r := (s.regs.fillCache b).construct) rfl (by rw [hpc]; rfl) rfl ⟨rfl, rfl, hk.cache⟩
            (by rw [hpc]; rfl) rfl nofun
        all_goals exact .answer rfl (by rw [hpc]; rfl) rfl hk (by rw [hpc]; rfl) rfl nofun

end Sys2Proof.Machine
end

