-- ==== Sys2Proof/Laws/PerInstr.lean ====
section
/-! SUPPORT. The family TableMask of LAWS.json: an encoded command lies in its own row of
`spec/opcode_table.json`, whatever its operands. -/

-- One theorem at a time: elaborating all of them at once asks for one thread each.
set_option Elab.async false

namespace Sys2Proof.Laws.TableMask

/-- The command's word selects its own row of the table: "a word `c` selects the row iff
`c & mask = match`" (`30_encoding.md`). -/
def Statement (i : Instr) : Prop := encode i &&& i.opcode.tableMask = i.opcode.tableMatch

/-- It is enough to look at the fields. -/
theorem of_fields {i : Instr}
    (h : ∀ c, c = i.fields → ∀ m, m = i.opcode.format.maskFields →
      CmdFields.mk (c.op &&& m.op) (c.a8 &&& m.a8) (c.wcode &&& m.wcode) (c.sgn &&& m.sgn) (c.osup &&& m.osup)
        (c.offset &&& m.offset) (c.mode &&& m.mode) (c.drdy &&& m.drdy) (c.thr &&& m.thr) (c.b1 &&& m.b1)
        (c.b0 &&& m.b0) (c.w1 &&& m.w1) (c.w2 &&& m.w2) (c.w3 &&& m.w3) = CmdFields.blank i.opcode) :
    Statement i := by
  rw [Statement, encode, Opcode.tableMask_eq, CmdFields.toWord_and, Opcode.tableMatch_eq, h _ rfl _ rfl]

theorem rdfield (f : RegisterField) : Statement (.rdfield f) := by
  refine of_fields ?_
  rintro _ rfl _ rfl
  simp [Instr.fields, Instr.opcode, Opcode.format, Format.maskFields, CmdFields.blank,
    CmdFields.withDescriptor, Opcode.byte]

theorem wrfield (f : RegisterField) (v : Word) : Statement (.wrfield f v) := by
  refine of_fields ?_
  rintro _ rfl _ rfl
  simp [Instr.fields, Instr.opcode, Opcode.format, Format.maskFields, CmdFields.blank,
    CmdFields.withDescriptor, Opcode.byte]

theorem init (m : ModeArgs) (w : Bool) : Statement (.init m w) := by
  refine of_fields ?_
  rintro _ rfl _ rfl
  simp [Instr.fields, Instr.opcode, Opcode.format, Format.maskFields, CmdFields.blank,
    CmdFields.withMode, Opcode.byte]

theorem setmode (m : ModeArgs) : Statement (.setmode m) := by
  refine of_fields ?_
  rintro _ rfl _ rfl
  simp [Instr.fields, Instr.opcode, Opcode.format, Format.maskFields, CmdFields.blank,
    CmdFields.withMode, Opcode.byte]

theorem swreset : Statement .swreset := by
  refine of_fields ?_
  rintro _ rfl _ rfl
  simp [Instr.fields, Instr.opcode, Opcode.format, Format.maskFields, CmdFields.blank, Opcode.byte]

theorem pollrdy : Statement .pollrdy := by
  refine of_fields ?_
  rintro _ rfl _ rfl
  simp [Instr.fields, Instr.opcode, Opcode.format, Format.maskFields, CmdFields.blank, Opcode.byte]

theorem rdresult (w : WaitArg) : Statement (.rdresult w) := by
  refine of_fields ?_
  rintro _ rfl _ rfl
  cases w <;> simp [Instr.fields, Instr.opcode, Opcode.format, Format.maskFields, CmdFields.blank,
    CmdFields.withWait, Opcode.byte]

theorem rdeco2 (w : WaitArg) : Statement (.rdeco2 w) := by
  refine of_fields ?_
  rintro _ rfl _ rfl
  cases w <;> simp [Instr.fields, Instr.opcode, Opcode.format, Format.maskFields, CmdFields.blank,
    CmdFields.withWait, Opcode.byte]

theorem rdetvoc (w : WaitArg) : Statement (.rdetvoc w) := by
  refine of_fields ?_
  rintro _ rfl _ rfl
  cases w <;> simp [Instr.fields, Instr.opcode, Opcode.format, Format.maskFields, CmdFields.blank,
    CmdFields.withWait, Opcode.byte]

theorem setcal (h t : Option Word) : Statement (.setcal h t) := by
  refine of_fields ?_
  rintro _ rfl _ rfl
  simp [Instr.fields, Instr.opcode, Opcode.format, Format.maskFields, CmdFields.blank, Opcode.byte]

theorem getbase : Statement .getbase := by
  refine of_fields ?_
  rintro _ rfl _ rfl
  simp [Instr.fields, Instr.opcode, Opcode.format, Format.maskFields, CmdFields.blank, Opcode.byte]

theorem setbase (b : Half) : Statement (.setbase b) := by
  refine of_fields ?_
  rintro _ rfl _ rfl
  have : ((0 : Half) ++ b : Word) &&& 0xFFFF0000 = 0 := by
    show ((0 : Half) ++ b : BitVec (16 + 16)) &&& ((0xFFFF : Half) ++ (0 : Half)) = 0
    rw [BitVec.and_append]
    simp
  simp [Instr.fields, Instr.opcode, Opcode.format, Format.maskFields, CmdFields.blank, Opcode.byte]
  exact this

theorem decodeerr (e : Byte) : Statement (.decodeerr e) := by
  refine of_fields ?_
  rintro _ rfl _ rfl
  simp [Instr.fields, Instr.opcode, Opcode.format, Format.maskFields, CmdFields.blank, Opcode.byte]

theorem dumpstatus : Statement .dumpstatus := by
  refine of_fields ?_
  rintro _ rfl _ rfl
  simp [Instr.fields, Instr.opcode, Opcode.format, Format.maskFields, CmdFields.blank, Opcode.byte]

end Sys2Proof.Laws.TableMask
end

