-- ==== Sys2Proof/Tests/Slice0.lean ====
section
/-! SUPPORT. Tests of the model: well-formedness, decoding, one-step vectors of `95_test_vectors.md` (named by
their V numbers), and a witness for the hypotheses of every statement. -/

-- One theorem at a time: elaborating all of them at once asks for one thread each.
set_option Elab.async false

open Sys2Proof Sys2Proof.Machine

/-! ### Helpers -/

/-- A done transaction that brings these four bytes. -/
def ansData (a b c d : Byte) : Answer := ⟨true, a, b, c, d, none, 0⟩
/-- A done write or sleep. -/
def ansOk : Answer := ansData 0 0 0 0
/-- A transaction the transport reports failed. -/
def ansFail : Answer := ⟨false, 0, 0, 0, 0, none, 0⟩
/-- A done block read. -/
def ansBlock (bs : List Byte) : Answer := ⟨true, 0, 0, 0, 0, some bs, 0⟩

/-- The block of T3. -/
def t3 : List Byte := [0x02, 0x58, 0x00, 0x32, 0x18, 0x00, 0x03, 0xFF]
/-- The same as a result block. -/
def t3Block : ResultBlock := ⟨0x02, 0x58, 0x00, 0x32, 0x18, 0x00, 0x03, 0xFF⟩

/-- The reset state with a script of answers. -/
def fresh (as : List Answer) : State := { State.reset with answers := as }

/-- The state `1/1/1/1100/v` of the vectors with a script of answers; the cache, when valid, holds T3's block. -/
def made (valid : Bool) (as : List Answer) : State :=
  (fresh as).withRegs { Regs.reset with
    constructed := true, devmode := .app, measMode := 1, pollTimeoutValid := true, pollTimeout := 1100
    cacheValid := valid, cacheBytes := if valid then t3Block else .zero }

/-- A constructed handle in App and in mode Idle, with a calibration. -/
def idleMode (hum temp : Int) (as : List Answer) : State :=
  (fresh as).withRegs { Regs.reset with
    constructed := true, devmode := .app, calHum := BitVec.ofInt 32 hum, calTemp := BitVec.ofInt 32 temp }

/-- One step on a presented command word: the events, the response words, and a view of what it leaves. -/
def stepped {α : Type} (s : State) (w : Command) (view : State → α) : Option (List BusEvent × List (BitVec 96) × α) :=
  match step (s.present w) with
  | .next t => some (t.trace, t.responses.map Response.word, view t)
  | .fault _ => none
  | .refused _ => none

/-- The vectors' short form of the registers. -/
structure Short where
  constructed : Bool
  app : Bool
  mode : Nat
  timeout : Option Nat
  cacheValid : Bool
  deriving DecidableEq, Repr

/-- The short form of a state's registers. -/
def short (s : State) : Short :=
  ⟨s.regs.constructed, s.regs.devmode = .app, s.regs.measMode.toNat,
    if s.regs.pollTimeoutValid then some s.regs.pollTimeout.toNat else none, s.regs.cacheValid⟩

/-! ### Well-formedness -/

/-- R95 (b). -/
theorem test_wf_mask_zero : (RegisterField.mk 0x00 .w8 0 false none).maskNonzero = false ∧
    (Instr.rdfield ⟨0x00, .w8, 0, false, none⟩).wf = false := by decide
/-- R95 (c): 0x100 is the first mask too wide for eight bits. -/
theorem test_wf_mask_wide : (RegisterField.mk 0x00 .w8 0x100 false none).maskFits = false ∧
    (Instr.wrfield ⟨0x00, .w8, 0x100, false, none⟩ 0).wf = false ∧
    (Instr.rdfield ⟨0x00, .w16, 0x100, false, none⟩).wf = true := by decide
/-- R95 (d): `ctz(0x08)` is 3. -/
theorem test_wf_offset : (RegisterField.mk 0x00 .w8 0x08 false (some 2)).offsetAgrees = false ∧
    (Instr.rdfield ⟨0x00, .w8, 0x08, false, some 2⟩).wf = false ∧
    (Instr.rdfield ⟨0x00, .w8, 0x08, false, some 3⟩).wf = true := by decide
/-- R140: every field of the constant table is well-formed. -/
theorem test_field_table_wf : fieldTable.all (fun f => f.2.wf) = true := by decide +kernel

/-! ### Decoding -/

/-- R91, format F: V4's word, field by field. -/
theorem test_decode_rdfield :
    decode ((0x01 : BitVec 8) ++ (0x03 : BitVec 8) ++ (0b01 : BitVec 2) ++ (1 : BitVec 1) ++ (0 : BitVec 1) ++
      (0 : BitVec 5) ++ (0 : BitVec 3) ++ (0 : BitVec 1) ++ (0 : BitVec 1) ++ (0 : BitVec 1) ++ (0 : BitVec 1) ++
      (0x0000FC00 : BitVec 32) ++ (0 : BitVec 32) ++ (0 : BitVec 32) : BitVec 128) =
      .ok (.rdfield ⟨0x03, .w16, 0xFC00, true, none⟩) := by decide +kernel
/-- R91, format F with a supplied offset: V2's word, field by field. -/
theorem test_decode_rdfield_offset :
    decode ((0x01 : BitVec 8) ++ (0x00 : BitVec 8) ++ (0b00 : BitVec 2) ++ (0 : BitVec 1) ++ (1 : BitVec 1) ++
      (3 : BitVec 5) ++ (0 : BitVec 3) ++ (0 : BitVec 1) ++ (0 : BitVec 1) ++ (0 : BitVec 1) ++ (0 : BitVec 1) ++
      (0x00000008 : BitVec 32) ++ (0 : BitVec 32) ++ (0 : BitVec 32) : BitVec 128) =
      .ok (.rdfield ⟨0x00, .w8, 0x08, false, some 3⟩) := by decide +kernel
/-- R91, format FW: V12's word, field by field. -/
theorem test_decode_wrfield :
    decode ((0x02 : BitVec 8) ++ (0x01 : BitVec 8) ++ (0b00 : BitVec 2) ++ (0 : BitVec 1) ++ (0 : BitVec 1) ++
      (0 : BitVec 5) ++ (0 : BitVec 3) ++ (0 : BitVec 1) ++ (0 : BitVec 1) ++ (0 : BitVec 1) ++ (0 : BitVec 1) ++
      (0x00000008 : BitVec 32) ++ (1 : BitVec 32) ++ (0 : BitVec 32) : BitVec 128) =
      .ok (.wrfield ⟨0x01, .w8, 0x08, false, none⟩ 1) := by decide +kernel
/-- R91, format MI: mode 1, both enables 0, wait 1. -/
theorem test_decode_init :
    decode ((0x10 : BitVec 8) ++ (0 : BitVec 17) ++ (0b001 : BitVec 3) ++ (0 : BitVec 1) ++ (0 : BitVec 1) ++
      (1 : BitVec 1) ++ (0 : BitVec 1) ++ (0 : BitVec 96) : BitVec 128) =
      .ok (.init ⟨1, false, false⟩ true) := by decide +kernel
/-- R91, format M: mode 4, drdy 1, thr 0; and mode 2, drdy 0, thr 1 (V38, V39). -/
theorem test_decode_setmode :
    decode ((0x11 : BitVec 8) ++ (0 : BitVec 17) ++ (0b100 : BitVec 3) ++ (1 : BitVec 1) ++ (0 : BitVec 1) ++
      (0 : BitVec 1) ++ (0 : BitVec 1) ++ (0 : BitVec 96) : BitVec 128) = .ok (.setmode ⟨4, true, false⟩) ∧
    decode 0x11000024000000000000000000000000 = .ok (.setmode ⟨2, false, true⟩) := by decide +kernel
/-- R92, format Z, and R93's opcodes. -/
theorem test_decode_plain :
    decode ((0x13 : BitVec 8) ++ (0 : BitVec 120) : BitVec 128) = .ok .swreset ∧
    decode ((0x20 : BitVec 8) ++ (0 : BitVec 120) : BitVec 128) = .ok .pollrdy ∧
    decode ((0x31 : BitVec 8) ++ (0 : BitVec 120) : BitVec 128) = .ok .getbase ∧
    decode ((0x41 : BitVec 8) ++ (0 : BitVec 120) : BitVec 128) = .ok .dumpstatus := by decide +kernel
/-- R91, R98, format R: wait and tsel are `W0[1]` and `W0[0]`, the timeout is `W2`. -/
theorem test_decode_waits :
    decode ((0x21 : BitVec 8) ++ (0 : BitVec 22) ++ (1 : BitVec 1) ++ (1 : BitVec 1) ++ (0 : BitVec 32) ++
      (500 : BitVec 32) ++ (0 : BitVec 32) : BitVec 128) = .ok (.rdresult (.explicit 500)) ∧
    decode ((0x22 : BitVec 8) ++ (0 : BitVec 22) ++ (0 : BitVec 1) ++ (0 : BitVec 1) ++ (0 : BitVec 96) :
      BitVec 128) = .ok (.rdeco2 .immediate) ∧
    decode ((0x23 : BitVec 8) ++ (0 : BitVec 22) ++ (1 : BitVec 1) ++ (0 : BitVec 1) ++ (0 : BitVec 96) :
      BitVec 128) = .ok (.rdetvoc .derived) := by decide +kernel
/-- R91, R99, format C: `hp` is `W0[1]` with `W2`, `tp` is `W0[0]` with `W3` (V74, V77). -/
theorem test_decode_setcal :
    decode ((0x30 : BitVec 8) ++ (0 : BitVec 22) ++ (0 : BitVec 1) ++ (1 : BitVec 1) ++ (0 : BitVec 64) ++
      (0x2800 : BitVec 32) : BitVec 128) = .ok (.setcal none (some 0x2800)) ∧
    decode ((0x30 : BitVec 8) ++ (0 : BitVec 22) ++ (1 : BitVec 1) ++ (0 : BitVec 1) ++ (0 : BitVec 32) ++
      (0xF000 : BitVec 32) ++ (0 : BitVec 32) : BitVec 128) = .ok (.setcal (some 0xF000) none) := by
  decide +kernel
/-- R91, R100, formats B and E. -/
theorem test_decode_setbase_decodeerr :
    decode ((0x32 : BitVec 8) ++ (0 : BitVec 24) ++ (0 : BitVec 32) ++ (0 : BitVec 16) ++ (0xA5C3 : BitVec 16) ++
      (0 : BitVec 32) : BitVec 128) = .ok (.setbase 0xA5C3) ∧
    decode ((0x40 : BitVec 8) ++ (0xC0 : BitVec 8) ++ (0 : BitVec 112) : BitVec 128) = .ok (.decodeerr 0xC0) := by
  decide +kernel

/-- V27 to V33g: every refusal of the decoder, by name. -/
theorem test_decode_refusals :
    decode 0x12000000000000000000000000000000 = .error (.undefinedOpcode 0x12) ∧
    decode 0x01000000000000080000000100000000 = .error .reservedBits ∧
    decode 0x0100C000000000FF0000000000000000 = .error .reservedWidth ∧
    decode 0x01000180000000080000000000000000 = .error .offsetNotSupplied ∧
    decode 0x01000000000000000000000000000000 = .error .illFormedDescriptor ∧
    decode 0x01000000000001000000000000000000 = .error .illFormedDescriptor ∧
    decode 0x01001100000000080000000000000000 = .error .illFormedDescriptor ∧
    decode 0x21000001000000000000000000000000 = .error .conditionalBits ∧
    decode 0x21000002000000000000000500000000 = .error .conditionalBits ∧
    decode 0x30000001000000000000000500000000 = .error .conditionalBits ∧
    decode 0x32000000000000000001000000000000 = .error .reservedBits ∧
    decode 0x20000001000000000000000000000000 = .error .reservedBits ∧
    decode 0x10000011000000000000000000000000 = .error .reservedBits := by decide +kernel

/-- R105: the rows of the opcode table do not overlap. -/
theorem test_table_rows_disjoint :
    Opcode.all.Pairwise fun a b =>
      a.tableMatch &&& b.tableMask &&& a.tableMask ≠ b.tableMatch &&& a.tableMask &&& b.tableMask := by
  decide +kernel

/-- A row's word with every operand bit 0 decodes to the row's command; RDFIELD's and WRFIELD's have `mask = 0`,
which R95 (b) makes illegal (log entry 13). -/
theorem test_table_words :
    Opcode.all.map (fun o => (decodeTableWord 128 o.tableMatch.toNat).map Instr.opcode) =
      [none, none, some .init, some .setmode, some .swreset, some .pollrdy, some .rdresult, some .rdeco2,
        some .rdetvoc, some .setcal, some .getbase, some .setbase, some .decodeerr, some .dumpstatus] := by
  decide +kernel

/-! ### One step, from the vectors of `95_test_vectors.md` -/

/-- V4: a signed six-bit field. -/
theorem test_step_rdfield_signed : stepped (fresh [ansData 0xAB 0xCD 0 0]) 0x010360000000FC000000000000000000 short =
    some ([.memRead 0x03 .w16 (some 0xABCD)], [0x00010000FFFFFFEA00000000], ⟨false, false, 0, none, false⟩) := by
  decide +kernel
/-- V11: a failed read. -/
theorem test_step_rdfield_fails : stepped (fresh [ansFail]) 0x01000000000000FF0000000000000000 State.busy =
    some ([.memRead 0x00 .w8 none], [0x030100000000000000000000], false) := by decide +kernel
/-- V21: a mask with holes, read, merged and written. -/
theorem test_step_wrfield_holes : stepped (fresh [ansData 0x5A 0 0 0, ansOk]) 0x02100000000000A40000002900000000 State.busy =
    some ([.memRead 0x10 .w8 (some 0x5A), .memWrite 0x10 .w8 0xFE true], [0x000200000000000000000000], false) := by
  decide +kernel
/-- V23: the final write fails. -/
theorem test_step_wrfield_fails : stepped (fresh [ansData 0x10 0 0 0, ansFail]) 0x02010000000000040000000100000000 State.busy =
    some ([.memRead 0x01 .w8 (some 0x10), .memWrite 0x01 .w8 0x14 false], [0x030201010000000000000000], false) := by
  decide +kernel
/-- V43: INIT against a sensor in Boot that starts. -/
theorem test_step_init_boot :
    stepped (fresh [ansData 0x81 0 0 0, ansData 0x10 0 0 0, ansOk, ansOk, ansData 0x90 0 0 0, ansOk])
      0x10000010000000000000000000000000 short =
    some ([.memRead 0x20 .w8 (some 0x81), .memRead 0x00 .w8 (some 0x10), .memWriteBlock 0xF4 [] true, .sleep 2,
        .memRead 0x00 .w8 (some 0x90), .memWrite 0x01 .w8 0x10 true],
      [0x001000000000000000000000], ⟨true, true, 1, some 1100, false⟩) := by decide +kernel
/-- Program C, step 1: INIT with a wait that finds a sample at the first poll. -/
theorem test_step_init_wait :
    stepped (fresh [ansData 0x81 0 0 0, ansData 0x90 0 0 0, ansOk, ansData 0x98 0 0 0, ansBlock t3])
      0x10000012000000000000000000000000 (fun t => (short t, t.regs.cacheBytes)) =
    some ([.memRead 0x20 .w8 (some 0x81), .memRead 0x00 .w8 (some 0x90), .memWrite 0x01 .w8 0x10 true,
        .memRead 0x00 .w8 (some 0x98), .memReadBlock 0x02 8 (.bytes t3)],
      [0x001000000000000000000000], ⟨true, true, 1, some 1100, true⟩, t3Block) := by decide +kernel
/-- V36: SETMODE whose write fails: the cache is invalid, the mode and its timeout are kept. -/
theorem test_step_setmode_fails : stepped (made true [ansFail]) 0x11000020000000000000000000000000 short =
    some ([.memWrite 0x01 .w8 0x20 false], [0x031101010000000000000000], ⟨true, true, 1, some 1100, false⟩) := by
  decide +kernel
/-- V38: RawFast with the data-ready interrupt. -/
theorem test_step_setmode : stepped (made true [ansOk]) 0x11000048000000000000000000000000 short =
    some ([.memWrite 0x01 .w8 0x48 true], [0x001100000000000000000000], ⟨true, true, 4, some 275, false⟩) := by
  decide +kernel
/-- V42: SWRESET whose write fails: the handle is dropped all the same. -/
theorem test_step_swreset_fails : stepped (made true [ansFail]) 0x13000000000000000000000000000000 short =
    some ([.memWrite 0xFF .w32 0x11E5728A false], [0x031301FF0000000000000000], ⟨false, false, 0, none, false⟩) := by
  decide +kernel
/-- V56: POLLRDY sees a sensor that fell back to Boot. -/
theorem test_step_pollrdy : stepped (made false [ansData 0x10 0 0 0]) 0x20000000000000000000000000000000 short =
    some ([.memRead 0x00 .w8 (some 0x10)], [0x002000000000000000000000], ⟨true, false, 1, some 1100, false⟩) := by
  decide +kernel
/-- V59: RDRESULT, ready at the third poll, at t0 + 500. -/
theorem test_step_rdresult_wait :
    stepped (made false [ansData 0x90 0 0 0, ansOk, ansData 0x90 0 0 0, ansOk, ansData 0x98 0 0 0, ansBlock t3])
      0x21000002000000000000000000000000 State.now =
    some ([.memRead 0x00 .w8 (some 0x90), .sleep 250, .memRead 0x00 .w8 (some 0x90), .sleep 250,
        .memRead 0x00 .w8 (some 0x98), .memReadBlock 0x02 8 (.bytes t3)],
      [0x0021000002580032180003FF], 500) := by decide +kernel
/-- V64: a short block leaves the cache as it was. -/
theorem test_step_rdresult_short :
    stepped (made true [ansBlock [1, 2, 3]]) 0x21000000000000000000000000000000 State.cacheOut =
    some ([.memReadBlock 0x02 8 (.bytes [1, 2, 3])], [0x082100030000000000000000], some t3Block) := by
  decide +kernel
/-- V70. -/
theorem test_step_rdeco2 : stepped (made false [ansBlock t3]) 0x22000000000000000000000000000000 State.cacheOut =
    some ([.memReadBlock 0x02 8 (.bytes t3)], [0x002200000000025800000000], some t3Block) := by decide +kernel
/-- V71. -/
theorem test_step_rdetvoc :
    stepped (made false [ansData 0x98 0 0 0, ansBlock t3]) 0x23000002000000000000000000000000 State.cacheOut =
    some ([.memRead 0x00 .w8 (some 0x98), .memReadBlock 0x02 8 (.bytes t3)], [0x002300000000003200000000],
      some t3Block) := by decide +kernel
/-- V75. -/
theorem test_step_setcal :
    stepped (idleMode 25600 10240 [ansOk]) 0x30000003000000000000610000002F00
      (fun t => (t.regs.calHum.toInt, t.regs.calTemp.toInt)) =
    some ([.memWrite 0x05 .w32 0x61006100 true], [0x003000000000000000000000], 24832, 12032) := by decide +kernel
/-- V81: one step beyond the largest temperature the register holds. -/
theorem test_step_setcal_too_hot :
    stepped (idleMode 0 52735 []) 0x3000000100000000000000000000CE00
      (fun t => (t.regs.calHum.toInt, t.regs.calTemp.toInt)) =
    some ([], [0x043000000001000000000000], 0, 52735) := by decide +kernel
/-- V84. -/
theorem test_step_getbase : stepped (made false [ansData 0xA5 0xC3 0 0]) 0x31000000000000000000000000000000 State.busy =
    some ([.memRead 0x11 .w16 (some 0xA5C3)], [0x003100000000A5C300000000], false) := by decide +kernel
/-- V85; the bytes on the bus are A5 C3. -/
theorem test_step_setbase : stepped (made false [ansOk]) 0x32000000000000000000A5C300000000
      (fun t => t.trace.map BusEvent.driven) =
    some ([.memWrite 0x11 .w16 0xA5C3 true], [0x003200000000000000000000], [[0xA5, 0xC3]]) := by decide +kernel
/-- V89, on a block just reset. -/
theorem test_step_decodeerr : stepped (fresh []) 0x401C0000000000000000000000000000 State.busy =
    some ([], [0x004000000000000700000000], false) := by decide +kernel
/-- T4: the order of the flags. -/
theorem test_error_flags : errorFlags 0x20 = [.modeInvalid] ∧ errorFlags 0xC0 = [.writeInvalid, .readInvalid] := by
  decide
/-- V91: the cache holds T3's block. -/
theorem test_step_dumpstatus :
    stepped (made true [ansData 0x90 0 0 0, ansData 0xA5 0xC3 0 0, ansData 0x81 0 0 0])
      0x41000000000000000000000000000000 State.busy =
    some ([.memRead 0x00 .w8 (some 0x90), .memRead 0x11 .w16 (some 0xA5C3), .memRead 0x20 .w8 (some 0x81)],
      [0x004100009081A5C300000100], false) := by decide +kernel
/-- V92: the second read fails, and the third is not made. -/
theorem test_step_dumpstatus_fails :
    stepped (made false [ansData 0x90 0 0 0, ansFail]) 0x41000000000000000000000000000000 State.busy =
    some ([.memRead 0x00 .w8 (some 0x90), .memRead 0x11 .w16 none], [0x034100110000000000000000], false) := by
  decide +kernel
/-- V28: an undefined opcode. -/
theorem test_step_illegal : stepped (made true []) 0x12000000000000000000000000000000 short =
    some ([], [0x0A1200000000000000000000], ⟨true, true, 1, some 1100, true⟩) := by decide +kernel

/-- What a step leaves and what the host has seen, with the host's next inputs `ins`. -/
def watched {α : Type} (s : State) (ins : List HostInput) (view : State → α) : Option (List Outputs × α) :=
  match step (s.withInputs ins) with
  | .next t => some (t.observed, view t)
  | .fault _ => none
  | .refused _ => none

/-- R31, R164: a watched SETMODE stops after its acceptance, busy and with its cache invalid, before the write. -/
theorem test_step_watched_acceptance :
    watched (made true [ansOk]) [.command 0x11000048000000000000000000000000, .observe]
      (fun t => (t.pc, t.outputs, t.trace)) =
    some ([], .smWrite ⟨4, true, false⟩, ⟨true, none⟩, []) := by decide +kernel
/-- R25, R31: a look just before the fetch sees `busy = 1` and no cache; the micro-step after it fills the cache and
gives the response. -/
theorem test_step_watched_fetch :
    watched ((made false [ansBlock t3]).goto (.rrFetch .result)) [.observe] (fun t => (t.outputs, t.responses.length)) =
    some ([⟨true, none⟩], ⟨false, some t3Block⟩, 1) := by decide +kernel
/-- R30, R31: a look at a poll that finds no sample: the next state is the sleep, still busy, the stale cache still
shown. -/
theorem test_step_watched_poll :
    watched ((made true [ansData 0x90 0 0 0]).goto (.rrPoll .result 0 1100)) [.observe] (fun t => (t.pc, t.outputs)) =
    some ([⟨true, some t3Block⟩], .rrSleep .result 0 1100, ⟨true, some t3Block⟩) := by decide +kernel

/-- `withFetchWord` places a word that the very next step runs. -/
theorem test_fetch_word :
    (match step (State.reset.withFetchWord 128 0x40C00000000000000000000000000000) with
    | .next t => some (t.responses.map Response.word)
    | .fault _ => none
    | .refused _ => none) = some [0x004000000000003000000000] := by decide +kernel

/-! ### Witnesses: for every statement with hypotheses, a state and operands that meet them

A statement with several clauses has a conjunct for each. -/

/-- `s` at a sequencer state. -/
def busyAt (p : Pc) (as : List Answer) : State := (made false as).goto p

theorem test_witness_DecodeOfEncode :
    (Instr.wrfield ⟨0xFF, .w32, 0x80000000, true, some 31⟩ 0xFFFFFFFF).wf = true ∧
    (Instr.setcal (some 0xFFFFFFFF) none).wf = true := by decide
theorem test_witness_EncodeOfDecode :
    decode 0x01001180000000080000000000000000 = .ok (.rdfield ⟨0x00, .w8, 0x08, false, some 3⟩) := by
  decide +kernel
theorem test_witness_IllegalCommandChangesNothing :
    (State.reset.present 0x12000000000000000000000000000000).pc = .idle ∧
    (State.reset.present 0x12000000000000000000000000000000).inputs =
      .command 0x12000000000000000000000000000000 :: [] ∧
    decode 0x12000000000000000000000000000000 = .error (.undefinedOpcode 0x12) := by decide +kernel
/-- 0x00 and 0x42 lie just outside the map, 0x12 in a gap of it. -/
theorem test_witness_UndefinedOpcodesRefused :
    (State.reset.present 0x42000000000000000000000000000000).pc = .idle ∧
    (State.reset.present 0x42000000000000000000000000000000).inputs =
      .command 0x42000000000000000000000000000000 :: [] ∧
    (0x42000000000000000000000000000000 : Command).extractLsb' 120 8 = 0x42 ∧
    (∀ b ∈ ([0x00, 0x12, 0x42] : List Byte), b ∉
      ([0x01, 0x02, 0x10, 0x11, 0x13, 0x20, 0x21, 0x22, 0x23, 0x30, 0x31, 0x32, 0x40, 0x41] : List Byte)) := by
  decide +kernel
/-- V33e breaks the table's mask, V33b a conditional bit. -/
theorem test_witness_ReservedBitsRefused :
    (0x32000000000000000001000000000000 : Command).extractLsb' 120 8 = Opcode.setbase.byte ∧
    (0x32000000000000000001000000000000 : Command) &&& Opcode.setbase.tableMask ≠ Opcode.setbase.tableMatch ∧
    (0x21000001000000000000000000000000 : Command).extractLsb' 120 8 = Opcode.rdresult.byte ∧
    conditionalBitsSet .rdresult 0x21000001000000000000000000000000 = true := by decide +kernel
/-- V31, V29, V30, V32, V33: one word for each disjunct (V30's mask is exactly `2^8`); and two well-formed words,
V2's and V21's, the second with holes in its mask. -/
theorem test_witness_IllFormedDescriptorsRefused :
    illFormedDescriptor 0x0100C000000000FF0000000000000000 ∧
    illFormedDescriptor 0x01000000000000000000000000000000 ∧
    illFormedDescriptor 0x01000000000001000000000000000000 ∧
    illFormedDescriptor 0x01001100000000080000000000000000 ∧
    illFormedDescriptor 0x01000180000000080000000000000000 ∧
    (¬illFormedDescriptor 0x01001180000000080000000000000000 ∧
      (0x01001180000000080000000000000000 : Command) &&& Opcode.rdfield.tableMask = Opcode.rdfield.tableMatch) ∧
    (¬illFormedDescriptor 0x02100000000000A40000002900000000 ∧
      (0x02100000000000A40000002900000000 : Command) &&& Opcode.wrfield.tableMask = Opcode.wrfield.tableMatch) := by
  decide +kernel
/-- A host that waits, and one that watches. -/
theorem test_witness_StepRunsDecodedCommand :
    (State.reset.present 0x20000000000000000000000000000000).pc = .idle ∧
    (State.reset.present 0x20000000000000000000000000000000).inputs =
      .command 0x20000000000000000000000000000000 :: [] ∧
    decode 0x20000000000000000000000000000000 = .ok .pollrdy ∧
    ([] : List HostInput).head? ≠ some .observe ∧ [HostInput.observe].head? = some .observe := by decide +kernel
theorem test_witness_IdleWaits :
    State.reset.pc = .idle ∧ State.reset.inputs = [] ∧
    (State.reset.withInputs [.observe]).inputs = .observe :: [] := by decide
theorem test_witness_BusyCommandFinishes :
    ((busyAt .gbRead []).present 0).pc ≠ .idle ∧ ((busyAt .gbRead []).present 0).inputs.head? ≠ some .reset ∧
    ((busyAt .gbRead []).present 0).inputs.head? ≠ some .observe := by
  decide
theorem test_witness_ResetInputResets :
    ((busyAt .gbRead []).withInputs [.reset]).inputs = .reset :: [] := by decide
/-- A next state of a command, as a fact that `decide` can look into. -/
def execNext (i : Instr) (s : State) : State :=
  match exec i s with
  | .next t => t
  | .fault _ => s
  | .refused _ => s

/-- Every command on every state answers a next state. -/
theorem test_exec_next (i : Instr) (s : State) : exec i s = .next (execNext i s) := by
  cases i <;> rfl

/-- Every step of every state answers a next state: the block has no halt state (R304). -/
theorem test_step_next (s : State) : ∃ t, step s = .next t := by
  unfold step
  split
  · exact ⟨_, rfl⟩
  · exact ⟨_, rfl⟩
  · exact ⟨_, rfl⟩
  · exact ⟨_, rfl⟩
  · exact ⟨_, rfl⟩
  · exact ⟨_, test_exec_next _ _⟩
  · exact ⟨_, rfl⟩

/-- At IDLE, and at the first and the last state of an INIT in progress. -/
theorem test_witness_StepKeepsInvariant :
    ((made true []).Inv ∧ ∃ t, step (made true []) = .next t) ∧
    ((fresh []).goto (.inHwid ⟨4, false, false⟩ true)).Inv ∧
    (({ fresh [] with now := 250 } : State).goto (.rrPoll .init 250 550)).Inv :=
  ⟨⟨by decide +kernel, test_step_next _⟩, by decide +kernel, by decide +kernel⟩

/-- A failed read, and a done one. -/
theorem test_witness_FirstFailureEndsCommand :
    exec .getbase (made true [ansFail]) = .next (execNext .getbase (made true [ansFail])) ∧
    (execNext .getbase (made true [ansFail])).trace.map BusEvent.failed = [true] ∧
    (execNext .getbase (made true [ansOk])).trace.map BusEvent.failed = [false] := ⟨test_exec_next _ _, by decide +kernel, by decide +kernel⟩
theorem test_witness_CommandsIssueOnlyTheirAccesses :
    exec .getbase (made true [ansOk]) = .next (execNext .getbase (made true [ansOk])) ∧
    (execNext .getbase (made true [ansOk])).trace.map BusEvent.access? = [some (false, 0x11, 2)] :=
  ⟨test_exec_next _ _, by decide +kernel⟩
/-- SETMODE lies outside the lists of `constructed`, `devmode`, `cache_bytes` and the calibration, GETBASE
outside all the others. -/
theorem test_witness_RegistersWrittenOnlyByTheirCommands :
    exec (.setmode ⟨2, false, false⟩) (made true [ansOk]) =
      .next (execNext (.setmode ⟨2, false, false⟩) (made true [ansOk])) ∧
    Opcode.setmode ∉ [Opcode.init, .swreset] ∧ Opcode.getbase ∉ [Opcode.init, .setmode, .swreset] ∧
    (execNext (.setmode ⟨2, false, false⟩) (made true [ansOk])).regs.measMode = 2 := ⟨test_exec_next _ _, by decide +kernel, by decide +kernel, by decide +kernel⟩
/-- First the bytes change, then only the valid bit does. -/
theorem test_witness_CacheFilledOnlyByFullBlock :
    (execNext (.rdeco2 .immediate) (made true [ansBlock [0, 0, 0, 0, 0, 0, 0, 0]])).regs.cacheBytes ≠
      (made true []).regs.cacheBytes ∧
    (execNext (.rdeco2 .immediate) (made false [ansBlock [0, 0, 0, 0, 0, 0, 0, 0]])).regs.cacheValid = true ∧
    (made false []).regs.cacheValid = false := by decide +kernel
theorem test_witness_HandleCommandsNeedConstruction :
    (Instr.setcal none none).opcode ∈
      [Opcode.setmode, .pollrdy, .rdresult, .rdeco2, .rdetvoc, .setcal, .getbase, .setbase, .dumpstatus] ∧
    State.reset.regs.constructed = false ∧
    Instr.swreset.opcode ∈ [Opcode.rdfield, .wrfield, .init, .swreset, .decodeerr] ∧
    exec .swreset (fresh [ansOk]) = .next (execNext .swreset (fresh [ansOk])) ∧
    (execNext .swreset (fresh [ansOk])).responses = (fresh [ansOk]).responses ++ [okWith 0x13 0 0] :=
  ⟨by decide +kernel, by decide +kernel, by decide +kernel, test_exec_next _ _, by decide +kernel⟩
/-- A one-byte, a two-byte and a four-byte value, the last with every bit set. -/
theorem test_witness_BigEndianBothWays :
    ((0xFF : Word).toNat < 2 ^ Width.w8.bits ∧ busBytes 0xFF .w8 = ([0xFF, 0, 0, 0] : List Byte).take 1) ∧
    ((0xA5C3 : Word).toNat < 2 ^ Width.w16.bits ∧
      busBytes 0xA5C3 .w16 = ([0xA5, 0xC3, 0, 0] : List Byte).take 2) ∧
    ((0xFFFFFFFF : Word).toNat < 2 ^ Width.w32.bits ∧
      busBytes 0xFFFFFFFF .w32 = ([0xFF, 0xFF, 0xFF, 0xFF] : List Byte).take 4) := by decide +kernel
theorem test_witness_ComplementWithinWidth :
    (RegisterField.mk 0x01 .w8 0x70 false none).wf = true ∧
    (RegisterField.mk 0x05 .w32 0xFFFFFFFF false none).wf = true := by decide +kernel
/-- V25's field with every bit of the value set, and a full-width field. -/
theorem test_witness_PartialWriteKeepsSiblings :
    ((RegisterField.mk 0x10 .w16 0xFC00 true none).wf = true ∧
      (0x3F : Word) &&& ~~~((0xFC00 : Word) >>> ctz 0xFC00) = 0) ∧
    ((RegisterField.mk 0x10 .w32 0xFFFFFFFF true none).wf = true ∧
      (0xFFFFFFFF : Word) &&& ~~~((0xFFFFFFFF : Word) >>> ctz 0xFFFFFFFF) = 0) := by decide +kernel
theorem test_witness_FieldsStayInTheirMask :
    (RegisterField.mk 0x10 .w32 0x80000000 false none).wf = true ∧
    (1 : Word) &&& ~~~((0x80000000 : Word) >>> ctz 0x80000000) = 0 := by decide +kernel
theorem test_witness_AdcConversion :
    t3Block.adc = 1023 ∧ ResultBlock.zero.adc = 0 := by decide +kernel
theorem test_witness_RdfieldReadsField :
    (RegisterField.mk 0x30 .w32 0x80000000 true none).wf = true ∧ (fresh [ansOk]).nextAnswer.ok = true ∧
    (fresh [ansFail]).nextAnswer.ok = false := by decide +kernel
/-- V17 (0x100 in eight bits) and V18, done and failed. -/
theorem test_witness_WrfieldChecksAndWritesWhole :
    (RegisterField.mk 0x10 .w8 0xFF false none).wf = true ∧
    (0x100 : Word) &&& (0xFFFFFFFF - ((0xFF : Word) >>> ctz 0xFF)) ≠ 0 ∧
    (0xFF : Word) &&& (0xFFFFFFFF - ((0xFF : Word) >>> ctz 0xFF)) = 0 ∧
    (0xFF : Word).toNat = 2 ^ Width.w8.bits - 1 ∧
    (fresh [ansOk]).nextAnswer.ok = true ∧ (fresh [ansFail]).nextAnswer.ok = false := by decide +kernel
/-- V22, V23, V21. -/
theorem test_witness_WrfieldReadModifyWrite :
    (RegisterField.mk 0x10 .w8 0xA4 false none).wf = true ∧
    (0x29 : Word) &&& ~~~((0xA4 : Word) >>> ctz 0xA4) = 0 ∧ (0xA4 : Word).toNat ≠ 2 ^ Width.w8.bits - 1 ∧
    (fresh [ansFail]).nextAnswer.ok = false ∧
    (let probed (as : List Answer) :=
      (fresh as).event (.memRead 0x10 .w8 (some (wordOf (fresh as).nextAnswer .w8))) 0
    (fresh [ansOk, ansFail]).nextAnswer.ok = true ∧ (probed [ansOk, ansFail]).nextAnswer.ok = false ∧
      (fresh [ansOk, ansOk]).nextAnswer.ok = true ∧ (probed [ansOk, ansOk]).nextAnswer.ok = true) := by
  decide +kernel
/-- Program B, steps 1 and 4, on a field of one bit. -/
theorem test_witness_WriteThenReadReturnsValue :
    let f : RegisterField := ⟨0x01, .w8, 0x08, false, none⟩
    let s := fresh [ansData 0x10 0 0 0, ansOk, ansData 0x18 0 0 0]
    let t := execNext (.wrfield f 1) s
    f.wf = true ∧ exec (.wrfield f 1) s = .next t ∧ t.responses = s.responses ++ [okWith 0x02 0 0] ∧
      t.trace.getLast? = some (.memWrite 0x01 .w8 0x18 true) ∧ t.nextAnswer.ok = true ∧
      wordOf t.nextAnswer .w8 = 0x18 := ⟨by decide +kernel, test_exec_next _ _, by decide +kernel, by decide +kernel, by decide +kernel, by decide +kernel⟩
theorem test_witness_CodecIgnoresRegisters :
    let i : Instr := .rdfield ⟨0x00, .w8, 0x08, false, none⟩
    i.opcode ∈ [Opcode.rdfield, .wrfield] ∧ exec i (fresh [ansOk]) = .next (execNext i (fresh [ansOk])) :=
  ⟨by decide +kernel, test_exec_next _ _⟩
/-- Mode 5 is the first invalid one, mode 4 the last valid one. -/
theorem test_witness_InitChecksModeThenIdentity :
    4 < (5 : BitVec 3).toNat ∧ (4 : BitVec 3).toNat ≤ 4 ∧
    ((fresh [ansFail]).withRegs (initRegs Regs.reset)).nextAnswer.ok = false ∧
    (let s := (fresh [ansData 0x80 0 0 0]).withRegs (initRegs Regs.reset)
    s.nextAnswer.ok = true ∧ s.nextAnswer.b0 ≠ 0x81) ∧
    (let s := (fresh [ansData 0x81 0 0 0]).withRegs (initRegs Regs.reset)
    s.nextAnswer.ok = true ∧ s.nextAnswer.b0 = 0x81) := by decide +kernel
/-- The start fails; the re-read fails; still Boot; App. -/
theorem test_witness_BootToAppRule :
    let s (as : List Answer) := busyAt (.inAppstart ⟨1, false, false⟩ false) as
    let settled (as : List Answer) := ((s as).event (.memWriteBlock 0xF4 [] true) 0).event (.sleep 2) 2
    let after (as : List Answer) :=
      ((settled as).sawByte 0x00).withRegs
        (((settled as).sawByte 0x00).regs.mirror (settled as).nextAnswer.b0)
    ((busyAt (.inStatus ⟨1, false, false⟩ false) [ansOk]).pc = .inStatus ⟨1, false, false⟩ false ∧
      (busyAt (.inStatus ⟨1, false, false⟩ false) [ansOk]).nextAnswer.ok = true) ∧
    (s []).pc = .inAppstart ⟨1, false, false⟩ false ∧ (s [ansFail]).nextAnswer.ok = false ∧
    ((s [ansOk, ansOk, ansFail]).nextAnswer.ok = true ∧
      (settled [ansOk, ansOk, ansFail]).nextAnswer.ok = false) ∧
    ((settled [ansOk, ansOk, ansData 0x10 0 0 0]).nextAnswer.ok = true ∧
      (after [ansOk, ansOk, ansData 0x10 0 0 0]).regs.devmode = .boot) ∧
    ((settled [ansOk, ansOk, ansData 0x90 0 0 0]).nextAnswer.ok = true ∧
      (after [ansOk, ansOk, ansData 0x90 0 0 0]).regs.devmode = .app) := by decide +kernel
/-- Its second clause: an INIT on a sensor in Boot, whose first status byte has bit 7 clear, writes APP_START once;
one on a sensor in App, and one whose first status read fails, do not. -/
theorem test_witness_BootToAppRule_init :
    let i : Instr := .init ⟨0, false, false⟩ false
    let boot := execNext i (fresh [ansData 0x81 0 0 0, ansData 0x10 0 0 0, ansOk, ansOk, ansData 0x90 0 0 0, ansOk])
    let app := execNext i (fresh [ansData 0x81 0 0 0, ansData 0x90 0 0 0, ansOk])
    let lost := execNext i (fresh [ansData 0x81 0 0 0, ansFail])
    (∀ s, exec i s = .next (execNext i s)) ∧
    (boot.trace.countP (fun e => e.access? == some (true, 0xF4, 0)) = 1 ∧
      boot.trace.filterMap BusEvent.status? = [0x10, 0x90]) ∧
    (app.trace.countP (fun e => e.access? == some (true, 0xF4, 0)) = 0 ∧
      app.trace.filterMap BusEvent.status? = [0x90]) ∧
    (lost.trace.countP (fun e => e.access? == some (true, 0xF4, 0)) = 0 ∧
      lost.trace.filterMap BusEvent.status? = []) :=
  ⟨test_exec_next _, by decide +kernel, by decide +kernel, by decide +kernel⟩
/-- V44's script with mode 4 and no wait, and mode 0 with a wait. -/
theorem test_witness_InitFromAppConstructs :
    let s := fresh [ansData 0x81 0 0 0, ansData 0x90 0 0 0, ansOk]
    let s1 := s.sawByte 0x20
    let s2 := s1.sawByte 0x00
    ((4 : BitVec 3).toNat ≤ 4 ∧ (false = false ∨ (4 : BitVec 3) = 0)) ∧ (true = false ∨ (0 : BitVec 3) = 0) ∧
    s.nextAnswer.ok = true ∧ s.nextAnswer.b0 = 0x81 ∧ s1.nextAnswer.ok = true ∧
    s1.nextAnswer.b0.getLsbD 7 = Config.fwModeApp ∧ s2.nextAnswer.ok = true := by decide +kernel
/-- V43's script. -/
theorem test_witness_InitFromBootConstructs :
    let s := fresh [ansData 0x81 0 0 0, ansData 0x10 0 0 0, ansOk, ansOk, ansData 0x90 0 0 0, ansOk]
    let s1 := s.sawByte 0x20
    let s2 := s1.sawByte 0x00
    let s3 := s2.event (.memWriteBlock 0xF4 [] true) 0
    let s4 := s3.event (.sleep 2) 2
    let s5 := s4.sawByte 0x00
    s.nextAnswer.ok = true ∧ s.nextAnswer.b0 = 0x81 ∧ s1.nextAnswer.ok = true ∧
    s1.nextAnswer.b0.getLsbD 7 ≠ Config.fwModeApp ∧ s2.nextAnswer.ok = true ∧ s4.nextAnswer.ok = true ∧
    s4.nextAnswer.b0.getLsbD 7 = Config.fwModeApp ∧ s5.nextAnswer.ok = true := by decide +kernel
/-- The first and the last mode with a timeout. -/
theorem test_witness_InitWaitsTwiceTheTimeout :
    (busyAt (.inSetmode ⟨1, false, false⟩ true) [ansOk]).pc = .inSetmode ⟨1, false, false⟩ true ∧
    (busyAt (.inSetmode ⟨4, false, false⟩ true) [ansOk]).pc = .inSetmode ⟨4, false, false⟩ true ∧
    1 ≤ (1 : BitVec 3).toNat ∧ (4 : BitVec 3).toNat ≤ 4 ∧
    (busyAt (.inSetmode ⟨4, false, false⟩ true) [ansOk]).nextAnswer.ok = true := by decide +kernel
/-- An INIT with `as` answers the response `r`, and its mode write was acknowledged or not. -/
def initEndsWith (mode : BitVec 3) (wait : Bool) (as : List Answer) (r : Response) (written : Bool) : Prop :=
  exec (.init ⟨mode, false, false⟩ wait) (fresh as) = .next (execNext (.init ⟨mode, false, false⟩ wait) (fresh as)) ∧
    (execNext (.init ⟨mode, false, false⟩ wait) (fresh as)).responses = (fresh as).responses ++ [r] ∧
    (execNext (.init ⟨mode, false, false⟩ wait) (fresh as)).trace.contains
      (.memWrite 0x01 .w8 (measModeByte ⟨mode, false, false⟩) true) = written

/-- `initEndsWith` from its two parts that can be evaluated. -/
theorem initEndsWith_of {mode : BitVec 3} {wait : Bool} {as : List Answer} {r : Response} {written : Bool}
    (h : (execNext (.init ⟨mode, false, false⟩ wait) (fresh as)).responses = (fresh as).responses ++ [r] ∧
      (execNext (.init ⟨mode, false, false⟩ wait) (fresh as)).trace.contains
        (.memWrite 0x01 .w8 (measModeByte ⟨mode, false, false⟩) true) = written) :
    initEndsWith mode wait as r written := ⟨test_exec_next _ _, h⟩

/-- One run for every status, two for TransportError: mode 5; the wrong identity; still Boot; the mode write
refused; OK with and without a sample; a deadline met at the first poll; a null block; a failed poll. -/
theorem test_witness_InitOutcomes :
    initEndsWith 5 true [] ⟨.invalidMeasurementMode, 0x10, 5, 0, 0⟩ false ∧
    initEndsWith 1 true [ansData 0x80 0 0 0] ⟨.unexpectedHardwareId, 0x10, 0x80, 0, 0⟩ false ∧
    initEndsWith 1 true [ansData 0x81 0 0 0, ansData 0x10 0 0 0, ansOk, ansOk, ansData 0x10 0 0 0]
      ⟨.modeTransitionFailed, 0x10, 0x10, 0, 0⟩ false ∧
    initEndsWith 1 true [ansData 0x81 0 0 0, ansData 0x90 0 0 0, ansFail] ⟨.transportError, 0x10, 0x101, 0, 0⟩
      false ∧
    initEndsWith 0 true [ansData 0x81 0 0 0, ansData 0x90 0 0 0, ansOk] ⟨.ok, 0x10, 0, 0, 0⟩ true ∧
    initEndsWith 4 true [ansData 0x81 0 0 0, ansData 0x90 0 0 0, ansOk, ansData 0x98 0 0 0, ansBlock t3]
      ⟨.ok, 0x10, 0, 0, 0⟩ true ∧
    initEndsWith 4 true
      [ansData 0x81 0 0 0, ansData 0x90 0 0 0, ansOk, { ansData 0x90 0 0 0 with elapsed := 550 }]
      ⟨.timeout, 0x10, 0, 0, 0⟩ true ∧
    initEndsWith 4 true [ansData 0x81 0 0 0, ansData 0x90 0 0 0, ansOk, ansData 0x98 0 0 0, ansOk]
      ⟨.readFailed, 0x10, 0, 0, 0⟩ true ∧
    initEndsWith 4 true [ansData 0x81 0 0 0, ansData 0x90 0 0 0, ansOk, ansFail] ⟨.transportError, 0x10, 0, 0, 0⟩
      true :=
  ⟨initEndsWith_of (by decide +kernel), initEndsWith_of (by decide +kernel), initEndsWith_of (by decide +kernel),
    initEndsWith_of (by decide +kernel), initEndsWith_of (by decide +kernel), initEndsWith_of (by decide +kernel),
    initEndsWith_of (by decide +kernel), initEndsWith_of (by decide +kernel), initEndsWith_of (by decide +kernel)⟩
/-- V40; V35 (mode 5); V36; V38 (mode 4). -/
theorem test_witness_SetmodeRule :
    State.reset.regs.constructed = false ∧ (made true []).regs.constructed = true ∧
    4 < (5 : BitVec 3).toNat ∧ (4 : BitVec 3).toNat ≤ 4 ∧ (made true [ansFail]).nextAnswer.ok = false ∧
    (made true [ansOk]).nextAnswer.ok = true := by decide +kernel
theorem test_witness_SwresetRule :
    (fresh [ansOk]).nextAnswer.ok = true ∧ (fresh [ansFail]).nextAnswer.ok = false := by decide +kernel
/-- For POLLRDY, GETBASE and SETBASE: no handle; a failed transaction; a done one. -/
theorem test_witness_PollrdyRule_GetbaseRule_SetbaseRule :
    State.reset.regs.constructed = false ∧
    ((made true [ansFail]).regs.constructed = true ∧ (made true [ansFail]).nextAnswer.ok = false) ∧
    ((made true [ansOk]).regs.constructed = true ∧ (made true [ansOk]).nextAnswer.ok = true) := by decide +kernel
/-- V57 (App lost) and V68 (mode Idle). -/
theorem test_witness_ResultReadsNeedAppAndMode :
    (Instr.rdetvoc .derived).opcode ∈ [Opcode.rdresult, .rdeco2, .rdetvoc] ∧
    (let s := (made true []).withRegs ((made true []).regs.mirror 0x10)
    s.regs.constructed = true ∧ s.regs.devmode ≠ .app) ∧
    ((idleMode 0 0 []).regs.constructed = true ∧ (idleMode 0 0 []).regs.measMode = 0) := by decide +kernel
/-- V66; V65; seven bytes, the longest short block; eight. -/
theorem test_witness_FetchRule :
    (busyAt (.rrFetch .init) [ansFail]).pc = .rrFetch .init ∧
    (busyAt (.rrFetch .init) [ansFail]).nextAnswer.ok = false ∧
    ((busyAt (.rrFetch .result) [ansOk]).nextAnswer.ok = true ∧
      (busyAt (.rrFetch .result) [ansOk]).nextAnswer.block = none) ∧
    ((busyAt (.rrFetch .eco2) [ansBlock [1, 2, 3, 4, 5, 6, 7]]).nextAnswer.block = some [1, 2, 3, 4, 5, 6, 7] ∧
      [1, 2, 3, 4, 5, 6, 7].length < 8) ∧
    ((busyAt (.rrFetch .etvoc) [ansBlock t3]).nextAnswer.ok = true ∧
      (busyAt (.rrFetch .etvoc) [ansBlock t3]).nextAnswer.block =
        some [0x02, 0x58, 0x00, 0x32, 0x18, 0x00, 0x03, 0xFF]) := by decide +kernel
/-- V66, V65, seven bytes, and T3's eight. -/
theorem test_witness_ImmediateReadsReturnBlock_WaitingReadsPoll :
    ((made true [ansBlock t3]).regs.constructed = true ∧ (made true [ansBlock t3]).regs.devmode = .app ∧
      (made true [ansBlock t3]).regs.measMode ≠ 0) ∧
    (made true [ansFail]).nextAnswer.ok = false ∧
    ((made true [ansOk]).nextAnswer.ok = true ∧ (made true [ansOk]).nextAnswer.block = none) ∧
    ((made true [ansBlock [1, 2, 3, 4, 5, 6, 7]]).nextAnswer.block = some [1, 2, 3, 4, 5, 6, 7] ∧
      ([1, 2, 3, 4, 5, 6, 7] : List Byte).length < 8) ∧
    ((made true [ansBlock t3]).nextAnswer.ok = true ∧
      (made true [ansBlock t3]).nextAnswer.block = some [0x02, 0x58, 0x00, 0x32, 0x18, 0x00, 0x03, 0xFF]) := by
  decide +kernel
/-- A failed poll; a ready one; one exactly at the deadline; one a millisecond before it. -/
theorem test_witness_PollLoopTurn :
    let s (T : Nat) (a : Answer) := { busyAt (.rrPoll .result 0 T) [a] with now := 250 }
    let seen (T : Nat) (a : Answer) := ((s T a).sawByte 0x00).withRegs ((s T a).regs.mirror (s T a).nextAnswer.b0)
    (s 250 ansFail).pc = .rrPoll .result 0 250 ∧ (s 250 ansFail).nextAnswer.ok = false ∧
    ((s 250 (ansData 0x98 0 0 0)).nextAnswer.ok = true ∧
      (s 250 (ansData 0x98 0 0 0)).nextAnswer.b0.getLsbD 3 = true) ∧
    ((s 250 (ansData 0x90 0 0 0)).nextAnswer.b0.getLsbD 3 = false ∧
      (seen 250 (ansData 0x90 0 0 0)).now - 0 ≥ 250) ∧
    ((s 251 (ansData 0x90 0 0 0)).nextAnswer.b0.getLsbD 3 = false ∧
      (seen 251 (ansData 0x90 0 0 0)).now - 0 < 251) := by decide +kernel
/-- With no timeout at all, and with R98's largest. -/
theorem test_witness_PollLoopBounded :
    (busyAt (.rrPoll .result 0 0) []).pc = .rrPoll .result (busyAt (.rrPoll .result 0 0) []).now 0 ∧
    (busyAt (.rrPoll .init 0 4294967295) []).pc =
      .rrPoll .init (busyAt (.rrPoll .init 0 4294967295) []).now 4294967295 := by decide +kernel
/-- V64. -/
theorem test_witness_FailedReadsKeepCache :
    let i : Instr := .rdresult .immediate
    let s := made true [ansBlock [1, 2, 3]]
    i.opcode ∈ [Opcode.rdresult, .rdeco2, .rdetvoc] ∧ exec i s = .next (execNext i s) ∧
    (execNext i s).responses = s.responses ++ [⟨.readFailed, 0x21, 3, 0, 0⟩] ∧ Status.readFailed ≠ .ok :=
  ⟨by decide +kernel, test_exec_next _ _, by decide +kernel, by decide +kernel⟩
/-- V83; V82; V81 and V80, on both sides of the bound; done and failed. -/
theorem test_witness_SetcalRule :
    State.reset.regs.constructed = false ∧
    (let s := (idleMode 0 0 []).withRegs ((idleMode 0 0 []).regs.mirror 0x10)
    s.regs.constructed = true ∧ s.regs.devmode ≠ .app) ∧
    ((idleMode 0 0 []).regs.constructed = true ∧ (idleMode 0 0 []).regs.devmode = .app) ∧
    65535 < max (-12800) (52736 : Word).toInt + 12800 ∧ max (-12800) (52735 : Word).toInt + 12800 ≤ 65535 ∧
    (idleMode 0 0 [ansOk]).nextAnswer.ok = true ∧ (idleMode 0 0 [ansFail]).nextAnswer.ok = false := by
  decide +kernel
/-- No handle; the first, the second, the third read fails; none does. -/
theorem test_witness_DumpstatusRule :
    let s (as : List Answer) := made true as
    let seen (as : List Answer) := ((s as).sawByte 0x00).withRegs ((s as).regs.mirror (s as).nextAnswer.b0)
    let based (as : List Answer) := (seen as).sawHalf 0x11
    State.reset.regs.constructed = false ∧ (s []).regs.constructed = true ∧ (s [ansFail]).nextAnswer.ok = false ∧
    ((s [ansOk, ansFail]).nextAnswer.ok = true ∧ (seen [ansOk, ansFail]).nextAnswer.ok = false) ∧
    ((seen [ansOk, ansOk, ansFail]).nextAnswer.ok = true ∧ (based [ansOk, ansOk, ansFail]).nextAnswer.ok = false) ∧
    (based [ansOk, ansOk, ansOk]).nextAnswer.ok = true := by decide +kernel
theorem test_witness_WatchedMicroStep :
    ((busyAt .gbRead []).withInputs [.observe]).pc ≠ .idle ∧
    ((busyAt .gbRead []).withInputs [.observe]).inputs = .observe :: [] := by decide
/-- Where `k` steps lead. -/
def after (k : Nat) (s : State) : State :=
  match steps k s with
  | .next t => t
  | .fault _ => s
  | .refused _ => s
/-- Every run goes on (R304). -/
theorem test_run_next (k : Nat) (s : State) : steps k s = .next (after k s) := by
  obtain ⟨t, h⟩ : ∃ t : State, steps k s = .next t := by
    induction k generalizing s with
    | zero => exact ⟨s, rfl⟩
    | succ k ih =>
      obtain ⟨t, ht⟩ := test_step_next s
      obtain ⟨u, hu⟩ := ih t
      exact ⟨u, (steps_succ ht).trans hu⟩
  simp only [after, h]
/-- A GETBASE that the host looks at twice: once while it is busy, once after its response. -/
theorem test_witness_WatchedCommandIsTheSame :
    let s := (made false [ansData 0xA5 0xC3 0 0]).withInputs
      (.command 0x31000000000000000000000000000000 :: (List.replicate 2 .observe ++ []))
    s.pc = .idle ∧ decode 0x31000000000000000000000000000000 = .ok .getbase ∧
    steps (2 + 1) s = .next (after (2 + 1) s) ∧ exec .getbase s = .next (execNext .getbase s) ∧
    (after (2 + 1) s).observed = [⟨true, none⟩, ⟨false, none⟩] :=
  ⟨by decide +kernel, by decide +kernel, test_run_next _ _, test_exec_next _ _, by decide +kernel⟩
/-- A whole register and a part of one; modes 0 and 4; a constructed handle; the warmest temperature that fits. -/
theorem test_witness_AcceptanceEntersFirstState :
    ((RegisterField.mk 0x10 .w8 0xFF false none).wf = true ∧ (0xFF : Word).toNat = 2 ^ Width.w8.bits - 1 ∧
      (0xFF : Word) &&& ~~~((0xFF : Word) >>> ctz 0xFF) = 0) ∧
    ((RegisterField.mk 0x10 .w8 0xA4 false none).wf = true ∧ (0xA4 : Word).toNat ≠ 2 ^ Width.w8.bits - 1 ∧
      (0x29 : Word) &&& ~~~((0xA4 : Word) >>> ctz 0xA4) = 0) ∧
    (0 : BitVec 3).toNat ≤ 4 ∧ (4 : BitVec 3).toNat ≤ 4 ∧ (made true []).regs.constructed = true ∧
    (made true []).regs.devmode = .app ∧ (made true []).regs.measMode ≠ 0 ∧
    max (-12800) (52735 : Word).toInt + 12800 ≤ 65535 := by decide +kernel
end

section
/-! PROOF. What the acceptance of a command can do, said once, as `microStep_cases` does it for a micro-step; and
what both keep: the history of the partners grows, and a command has answered exactly when it is back at IDLE. -/

namespace Sys2Proof.Machine

/-- What the acceptance of `i` can do: enter a state of that command, with registers of its own choosing, or
answer at once with the registers as they are; no transaction failed, since none was issued (R30, R271). -/
def AcceptOutcome (i : Instr) (s t : State) : Prop :=
  (∃ r p, t = (s.withRegs r).goto p ∧ p.opcode? = some i.opcode) ∨
    (∃ q, t = s.respond q ∧ q.op = i.opcode.byte ∧ q.status ≠ .transportError)

/-- The acceptance enters a state of its command. -/
theorem AcceptOutcome.enters {i : Instr} {s : State} (r : Regs) {p : Pc} (hp : p.opcode? = some i.opcode) :
    AcceptOutcome i s ((s.withRegs r).goto p) :=
  .inl ⟨r, p, rfl, hp⟩

/-- A check of the acceptance fails, with a failure that is not a transaction's. -/
theorem AcceptOutcome.raises {i : Instr} {s : State} (e : Failure) (he : e.status ≠ .transportError) :
    AcceptOutcome i s (s.raise i.opcode e) :=
  .inr ⟨_, rfl, rfl, he⟩

/-- A handle command answers NotConstructed, or does what it does on a handle (R266). -/
theorem AcceptOutcome.withHandle {i : Instr} {s k : State} (h : AcceptOutcome i s k) :
    AcceptOutcome i s (s.withHandle i.opcode k) :=
  iteInduction (fun _ => h) fun _ => .raises .notConstructed nofun

/-- The three result reads are accepted alike (R192). -/
theorem startResult_cases {i : Instr} {u : ResultUser} (hu : userOpcode u = i.opcode) (w : WaitArg) (s : State) :
    AcceptOutcome i s (startResult u w s) := by
  unfold startResult
  rw [hu]
  refine .withHandle (iteInduction (fun _ => ?_) fun _ => .raises .noData nofun)
  cases w <;> exact .enters s.regs (congrArg some hu)

/-- Every acceptance has one of these outcomes. -/
theorem accept_cases (i : Instr) (s : State) : AcceptOutcome i s (s.accept i) := by
  cases i with
  | rdfield f => exact .enters s.regs rfl
  | wrfield f v =>
    refine iteInduction (fun _ => ?_) fun _ => .raises (.invalidFieldValue v) nofun
    split
    · exact .enters s.regs rfl
    · exact .enters s.regs rfl
  | init m w => exact iteInduction (fun _ => .raises (.invalidMeasurementMode m.mode) nofun) fun _ => .enters _ rfl
  | setmode m =>
    exact .withHandle <|
      iteInduction (fun _ => .raises (.invalidMeasurementMode m.mode) nofun) fun _ => .enters _ rfl
  | swreset => exact .enters _ rfl
  | pollrdy => exact .withHandle (.enters s.regs rfl)
  | rdresult w => exact startResult_cases rfl w s
  | rdeco2 w => exact startResult_cases rfl w s
  | rdetvoc w => exact startResult_cases rfl w s
  | setcal h t =>
    refine .withHandle (iteInduction (fun _ => ?_) fun _ => .raises .noData nofun)
    exact iteInduction (fun _ => .raises (.invalidFieldValue _) nofun) fun _ => .enters _ rfl
  | getbase => exact .withHandle (.enters s.regs rfl)
  | setbase b => exact .withHandle (.enters s.regs rfl)
  | decodeerr e => exact .inr ⟨_, rfl, rfl, nofun⟩
  | dumpstatus => exact .withHandle (.enters s.regs rfl)

/-- At IDLE there is no micro-step. -/
theorem microStep_idle {s : State} (h : s.pc = .idle) : microStep s = s := by simp only [microStep, h]

/-- The rest of a command ends at IDLE (R30). -/
theorem complete_pc (s : State) : s.complete.pc = .idle := by
  by_cases h : s.pc = .idle
  · rwa [complete_idle h]
  · refine busy_induction (P := fun s => s.complete.pc = .idle) ?_ ?_ h
    · intro s hs hm
      rwa [complete_step hs, complete_idle hm]
    · intro s hs _ ih
      rwa [complete_step hs]

/-! ### The history of the partners (R14, R80) -/

/-- Nothing that was issued or answered by `s` is taken back in `t`, and time has not run backwards. -/
structure State.GrowsTo (s t : State) : Prop where
  trace : s.trace <+: t.trace
  responses : s.responses <+: t.responses
  now : s.now ≤ t.now

theorem State.GrowsTo.refl (s : State) : s.GrowsTo s := ⟨List.prefix_rfl, List.prefix_rfl, le_rfl⟩

theorem State.GrowsTo.trans {s t u : State} (h : s.GrowsTo t) (h' : t.GrowsTo u) : s.GrowsTo u :=
  ⟨h.trace.trans h'.trace, h.responses.trans h'.responses, h.now.trans h'.now⟩

theorem accept_growsTo (i : Instr) (s : State) : s.GrowsTo (s.accept i) := by
  obtain ⟨r, p, ht, -⟩ | ⟨q, ht, -⟩ := accept_cases i s <;> rw [ht]
  · exact ⟨List.prefix_rfl, List.prefix_rfl, le_rfl⟩
  · exact ⟨List.prefix_rfl, List.prefix_append _ _, le_rfl⟩

theorem microStep_growsTo {s : State} (h : s.pc ≠ .idle) : s.GrowsTo (microStep s) := by
  have hnow (e n) : s.now ≤ (s.event e n).now := by
    rw [State.event_now]
    omega
  obtain ⟨e, n, r, -, -, ⟨p, ht, -⟩ | ⟨q, ht, -⟩⟩ := microStep_cases h <;> rw [ht]
  · exact ⟨List.prefix_append _ _, List.prefix_rfl, hnow e n⟩
  · exact ⟨List.prefix_append _ _, List.prefix_append _ _, hnow e n⟩

theorem complete_growsTo (s : State) : s.GrowsTo s.complete :=
  complete_keeps (P := s.GrowsTo) (fun _ h hs => hs.trans (microStep_growsTo h)) (.refl s)

/-- Settles O19: the host's side is `complete_inputs` and its like; the rest grows at the acceptance and at every
micro-step. -/
theorem historyOnlyGrows : Obligations.HistoryOnlyGrows := by
  intro i s t h
  rw [exec_eq_accept] at h
  cases h
  obtain ⟨htrace, hresponses, hnow⟩ := (accept_growsTo i s).trans (complete_growsTo _)
  exact ⟨by simp, by simp, htrace, hresponses, hnow⟩

/-! ### One response for each command (R30, R273) -/

/-- A command accepted when the responses were `rs` has answered once if it is back at IDLE, and not yet if it is
in progress. -/
structure State.AnsweredSince (s : State) (rs : List Response) : Prop where
  busy : s.pc ≠ .idle → s.responses = rs
  idle : s.pc = .idle → ∃ r, s.responses = rs ++ [r]

theorem accept_answeredSince (i : Instr) (s : State) : (s.accept i).AnsweredSince s.responses := by
  obtain ⟨r, p, ht, hp⟩ | ⟨q, ht, -⟩ := accept_cases i s <;> rw [ht]
  · refine ⟨fun _ => rfl, fun (hi : p = .idle) => ?_⟩
    cases hi
    cases hp
  · exact ⟨fun h => absurd rfl h, fun _ => ⟨q, rfl⟩⟩

theorem microStep_answeredSince {s : State} {rs : List Response} (hs : s.AnsweredSince rs) :
    (microStep s).AnsweredSince rs := by
  by_cases h : s.pc = .idle
  · rwa [microStep_idle h]
  · obtain ⟨e, n, r, -, -, ⟨p, ht, -, hp, -⟩ | ⟨q, ht, -⟩⟩ := microStep_cases h <;> rw [ht]
    · exact ⟨fun _ => hs.busy h, fun hi => absurd hi hp⟩
    · exact ⟨fun hn => absurd rfl hn, fun _ => ⟨q, congrArg (· ++ [q]) (hs.busy h)⟩⟩

theorem complete_answeredSince {s : State} {rs : List Response} (hs : s.AnsweredSince rs) :
    s.complete.AnsweredSince rs :=
  complete_keeps (P := (State.AnsweredSince · rs)) (fun _ _ => microStep_answeredSince) hs

end Sys2Proof.Machine
end

section
/-! PROOF. A host that looks: one look (O58), and a command watched look by look (O59). -/

namespace Sys2Proof.Machine

/-! ### What a look leads to -/

/-- A look at the outputs is one entry of `observed`, and on the block's side it is the micro-step (R6, R31). -/
theorem step_look {s : State} {rest : List HostInput} (h : s.inputs = .observe :: rest) :
    step s = .next ((microStep s).withHost rest (s.observed ++ [s.outputs])) := by
  rw [step_observe h, ← microStep_withHost]
  rfl

/-! ### Who invalidates the cache (R25, R164) -/

theorem State.memRead_keeps_cacheValid {s : State} {op : Opcode} {a : Byte} {w : Width} {k : Word → State → State}
    (hs : s.regs.cacheValid = true) (hk : ∀ v t, t.regs.cacheValid = true → (k v t).regs.cacheValid = true) :
    (s.memRead op a w k).regs.cacheValid = true :=
  iteInduction (motive := fun t : State => t.regs.cacheValid = true) (fun _ => hk _ _ hs) fun _ => hs

theorem State.memWrite_keeps_cacheValid {s : State} {op : Opcode} {a : Byte} {w : Width} {v : Word}
    {k : State → State} (hs : s.regs.cacheValid = true)
    (hk : ∀ t, t.regs.cacheValid = true → (k t).regs.cacheValid = true) :
    (s.memWrite op a w v k).regs.cacheValid = true :=
  iteInduction (motive := fun t : State => t.regs.cacheValid = true) (fun _ => hk _ hs) fun _ => hs

theorem State.memWriteBlock_keeps_cacheValid {s : State} {op : Opcode} {a : Byte} {bs : List Byte}
    {k : State → State} (hs : s.regs.cacheValid = true)
    (hk : ∀ t, t.regs.cacheValid = true → (k t).regs.cacheValid = true) :
    (s.memWriteBlock op a bs k).regs.cacheValid = true :=
  iteInduction (motive := fun t : State => t.regs.cacheValid = true) (fun _ => hk _ hs) fun _ => hs

theorem State.readStatus_keeps_cacheValid {s : State} {op : Opcode} {k : Byte → State → State}
    (hs : s.regs.cacheValid = true) (hk : ∀ st t, t.regs.cacheValid = true → (k st t).regs.cacheValid = true) :
    (s.readStatus op k).regs.cacheValid = true :=
  State.memRead_keeps_cacheValid hs fun _ _ ht => hk _ _ ht

/-- The fetch leaves the cache as it is or fills it (R196). -/
theorem rrFetch_keeps_cacheValid {s : State} (u : ResultUser) (hs : s.regs.cacheValid = true) :
    (rrFetch u s).regs.cacheValid = true := by
  unfold rrFetch State.fetchBlock
  cases blockOutcome s.nextAnswer 8 with
  | fail => exact hs
  | null => exact hs
  | bytes bs =>
    dsimp only
    cases blockOf? bs with
    | none => exact hs
    | some b => cases u <;> rfl

theorem deadlinePassed_cacheValid (u : ResultUser) (s : State) :
    (deadlinePassed u s).regs.cacheValid = s.regs.cacheValid := by
  cases u <;> rfl

/-- No micro-step but INIT's mode write invalidates the cache; SETMODE's comes after the invalidation, which is part
of its acceptance (R164, log entry 18). -/
theorem microStep_keeps_cacheValid {s : State} (hp : ∀ m w, s.pc ≠ .inSetmode m w)
    (hs : s.regs.cacheValid = true) : (microStep s).regs.cacheValid = true := by
  unfold microStep
  cases hpc : s.pc with
  | idle => exact hs
  | inSetmode m w => exact absurd hpc (hp m w)
  | rfRead f => exact State.memRead_keeps_cacheValid hs fun _ _ ht => ht
  | wfProbe f v => exact State.memRead_keeps_cacheValid hs fun _ _ ht => ht
  | gbRead => exact State.memRead_keeps_cacheValid hs fun _ _ ht => ht
  | dsBase st => exact State.memRead_keeps_cacheValid hs fun _ _ ht => ht
  | dsHwid st b => exact State.memRead_keeps_cacheValid hs fun _ _ ht => ht
  | inHwid m w =>
    refine State.memRead_keeps_cacheValid hs fun _ _ ht => ?_
    split
    · exact ht
    · exact ht
  | prRead => exact State.readStatus_keeps_cacheValid hs fun _ _ ht => ht
  | dsStatus => exact State.readStatus_keeps_cacheValid hs fun _ _ ht => ht
  | inStatus m w =>
    refine State.readStatus_keeps_cacheValid hs fun _ _ ht => ?_
    split
    · exact ht
    · exact ht
  | inRecheck m w =>
    refine State.readStatus_keeps_cacheValid hs fun _ _ ht => ?_
    split
    · exact ht
    · exact ht
  | rrPoll u t0 T =>
    refine State.readStatus_keeps_cacheValid hs fun _ _ ht => ?_
    split
    · exact ht
    · split
      · rwa [deadlinePassed_cacheValid]
      · exact ht
  | wfWrite f v => exact State.memWrite_keeps_cacheValid hs fun _ ht => ht
  | srWrite => exact State.memWrite_keeps_cacheValid hs fun _ ht => ht
  | scWrite e => exact State.memWrite_keeps_cacheValid hs fun _ ht => ht
  | sbWrite b => exact State.memWrite_keeps_cacheValid hs fun _ ht => ht
  | smWrite m =>
    exact State.memWrite_keeps_cacheValid hs fun _ ht => (Regs.withMode_cacheValid _ _).trans ht
  | inAppstart m w => exact State.memWriteBlock_keeps_cacheValid hs fun _ ht => ht
  | inSettle m w => exact hs
  | rrSleep u t0 T => exact hs
  | rrFetch u => exact rrFetch_keeps_cacheValid u hs

/-- Settles O58: the look is `step_look`, the micro-step `microStep_cases`; that only INIT's mode write invalidates
the cache is `microStep_keeps_cacheValid`. -/
theorem watchedMicroStep : Obligations.WatchedMicroStep := by
  intro s rest hp hi
  obtain ⟨e, n, r, -, hkept, hout⟩ := microStep_cases hp
  have htrace : (microStep s).trace = s.trace ++ [e] := by
    obtain ⟨p, ht, -⟩ | ⟨q, ht, -⟩ := hout <;> rw [ht] <;> rfl
  have hregs : (microStep s).regs = r := by
    obtain ⟨p, ht, -⟩ | ⟨q, ht, -⟩ := hout <;> rw [ht] <;> rfl
  refine ⟨_, e, step_look hi, rfl, htrace, ?_, ?_, ?_⟩
  · simp [State.outputs, State.busy, State.cacheOut, hp]
  · obtain ⟨p, ht, hnext, hbusy, -⟩ | ⟨q, ht, -⟩ := hout
    · exact .inl (by rw [ht]; exact ⟨hnext, hbusy, rfl⟩)
    · exact .inr (by rw [ht]; exact ⟨rfl, q, rfl⟩)
  · rw [State.withHost_regs, hregs]
    obtain ⟨hbytes, hvalid⟩ | hfill := hkept.cache
    · by_cases hm : ∃ m wait, s.pc = .inSetmode m wait
      · cases hv : r.cacheValid with
        | true => exact .inl ⟨hbytes, (hvalid hv).symm⟩
        | false => exact .inr (.inr ⟨hbytes, rfl, hm⟩)
      · have hkeeps := microStep_keeps_cacheValid fun m w h => hm ⟨m, w, h⟩
        rw [hregs] at hkeeps
        exact .inl ⟨hbytes, Bool.eq_iff_iff.mpr ⟨hvalid, hkeeps⟩⟩
    · exact .inr (.inl hfill)

/-! ### A command watched look by look -/

/-- A micro-step more or less before the rest of a command makes no difference, at IDLE neither. -/
theorem complete_microStep (s : State) : (microStep s).complete = s.complete := by
  by_cases h : s.pc = .idle
  · rw [microStep_idle h]
  · rw [complete_step h]

/-- At most `n + 1` micro-steps are one and then at most `n`, at IDLE too. -/
theorem runMicro_succ (n : Nat) (s : State) : runMicro (n + 1) s = runMicro n (microStep s) := by
  rw [runMicro]
  split
  case isTrue h => rw [microStep_idle h, runMicro_idle h]
  case isFalse => rfl

theorem complete_runMicro (n : Nat) (s : State) : (runMicro n s).complete = s.complete := by
  induction n generalizing s with
  | zero => rfl
  | succ n ih => rw [runMicro_succ, ih, complete_microStep]

theorem runMicro_answeredSince (n : Nat) {s : State} {rs : List Response} (hs : s.AnsweredSince rs) :
    (runMicro n s).AnsweredSince rs := by
  induction n generalizing s with
  | zero => exact hs
  | succ n ih =>
    rw [runMicro_succ]
    exact ih (microStep_answeredSince hs)

/-- What `n` looks show from `s` on, with one micro-step after each (R31, log entry 2). -/
def looks (n : Nat) (s : State) : List Outputs := (List.iterate microStep s n).map State.outputs

theorem looks_succ (n : Nat) (s : State) : looks (n + 1) s = s.outputs :: looks n (microStep s) := rfl

/-- `n` looks take at most `n` micro-steps, and log what they show. -/
theorem steps_looks (n : Nat) (s : State) (rest : List HostInput) (obs : List Outputs) :
    steps n (s.withHost (List.replicate n .observe ++ rest) obs) =
      .next ((runMicro n s).withHost rest (obs ++ looks n s)) := by
  induction n generalizing s obs with
  | zero => simp [looks, runMicro]
  | succ n ih =>
    have hlook : step (s.withHost (List.replicate (n + 1) .observe ++ rest) obs) =
        .next ((microStep s).withHost (List.replicate n .observe ++ rest) (obs ++ [s.outputs])) := by
      rw [step_look rfl, microStep_withHost]
      rfl
    rw [steps_succ hlook, ih, runMicro_succ, looks_succ, List.append_assoc, List.singleton_append]

/-- Looks at IDLE show `busy = 0`. -/
theorem looks_idle (n : Nat) {s : State} (h : s.pc = .idle) :
    (looks n s).map Outputs.busy = List.replicate n false := by
  induction n with
  | zero => rfl
  | succ n ih =>
    rw [looks_succ, microStep_idle h, List.map_cons, ih, List.replicate_succ]
    simp [State.outputs, State.busy, h]

/-- The looks at a command show `busy = 1` until its response, then `busy = 0`: a command still in progress has
shown `busy = 1` at every look. -/
theorem looks_busy (n : Nat) (s : State) :
    ∃ k ≤ n, (looks n s).map Outputs.busy = List.replicate k true ++ List.replicate (n - k) false ∧
      ((runMicro n s).pc ≠ .idle → k = n) := by
  induction n generalizing s with
  | zero => exact ⟨0, le_rfl, rfl, fun _ => rfl⟩
  | succ n ih =>
    by_cases h : s.pc = .idle
    · refine ⟨0, Nat.zero_le _, looks_idle _ h, fun hn => ?_⟩
      rw [runMicro_idle h] at hn
      exact absurd h hn
    · obtain ⟨k, hk, hlooks, hend⟩ := ih (microStep s)
      refine ⟨k + 1, by omega, ?_, fun hn => ?_⟩
      · have hb : s.outputs.busy = true := by simp [State.outputs, State.busy, h]
        rw [looks_succ, List.map_cons, hlooks, hb, Nat.add_sub_add_right, List.replicate_succ, List.cons_append]
      · rw [runMicro_succ] at hn
        rw [hend hn]

/-- Where a presented command and `n` looks lead: to the command after at most `n` micro-steps, with the looks
logged; or, where the host does not look at all, to its end. -/
theorem steps_presented {n : Nat} {s : State} {w : Command} {rest : List HostInput} {i : Instr} (hp : s.pc = .idle)
    (hi : s.inputs = .command w :: (List.replicate n .observe ++ rest)) (hw : decode w = .ok i) :
    steps (n + 1) s = .next ((runMicro n (s.accept i)).withHost rest (s.observed ++ looks n (s.accept i))) ∨
      (n = 0 ∧ steps (n + 1) s = .next ((s.accept i).complete.withHost rest s.observed)) := by
  by_cases hr : (List.replicate n HostInput.observe ++ rest).head? = some .observe
  · have hstep := step_watched hp hi hw hr
    rw [State.withInputs_eq, accept_withHost] at hstep
    exact .inl ((steps_succ hstep).trans (steps_looks n _ rest _))
  · have hn : n = 0 := by
      cases n with
      | zero => rfl
      | succ n => exact absurd rfl hr
    subst hn
    have hstep := step_command hp hi hw hr
    rw [exec_eq_accept, State.withInputs_eq, accept_withHost, complete_withHost] at hstep
    exact .inr ⟨rfl, steps_succ hstep⟩

/-- Settles O59: by `steps_presented` the command is somewhere on the way of its unwatched run, which
`complete_runMicro` finishes alike; the looks are `looks_busy`, the response `State.AnsweredSince`. -/
theorem watchedCommandIsTheSame : Obligations.WatchedCommandIsTheSame := by
  intro n s t u w rest i hp hi hw ht hu
  rw [exec_eq_accept] at hu
  cases hu
  have hsame {b : State} {obs : List Outputs} (hb : b.complete = (s.accept i).complete) :
      (b.withHost rest obs).complete.blockSide = (s.accept i).complete.blockSide := by
    rw [complete_withHost, hb]
    rfl
  have hans := accept_answeredSince i s
  obtain hrun | ⟨rfl, hrun⟩ := steps_presented hp hi hw
  · cases hrun.symm.trans ht
    obtain ⟨k, hk, hlooks, hend⟩ := looks_busy n (s.accept i)
    obtain ⟨hbusy, hidle⟩ := runMicro_answeredSince n hans
    exact ⟨hsame (complete_runMicro n _), rfl, _, k, rfl, hk, hlooks, fun h => ⟨hend h, hbusy h⟩, hidle⟩
  · cases hrun.symm.trans ht
    have hpc := complete_pc (s.accept i)
    exact ⟨hsame (complete_idle hpc), rfl, [], 0, (List.append_nil _).symm, le_rfl, rfl,
      fun h => absurd hpc h, (complete_answeredSince hans).idle⟩

end Sys2Proof.Machine
end

section
/-! PROOF. Masks within the declared width of a register (R10, R94). -/

namespace Sys2Proof

theorem Width.toNat_ones (w : Width) : w.ones.toNat = 2 ^ w.bits - 1 := by cases w <;> rfl

/-- A well-formed mask lies within the declared width (R95 (c)). -/
theorem RegisterField.mask_lt_of_wf {f : RegisterField} (h : f.wf = true) : f.mask.toNat < 2 ^ f.width.bits := by
  simp only [RegisterField.wf, RegisterField.maskFits, Bool.and_eq_true, decide_eq_true_eq] at h
  obtain ⟨⟨-, hfits⟩, -⟩ := h
  exact hfits

end Sys2Proof

namespace Sys2Proof.Machine

/-- Settles O24: the complement over 32 bits, cut to the width, is the remainder modulo `2^w`. -/
theorem complementWithinWidth : Obligations.ComplementWithinWidth := by
  intro f hf
  have hm := f.mask_lt_of_wf hf
  have hrem : (siblingMask f).toNat = (2 ^ 32 - 1 - f.mask.toNat) % 2 ^ f.width.bits := by
    rw [siblingMask, BitVec.toNat_and, BitVec.toNat_not, Width.toNat_ones, Nat.and_comm,
      Nat.and_two_pow_sub_one_eq_mod]
  rw [hrem]
  generalize f.width = w at hm ⊢
  cases w
  all_goals
    simp only [Width.bits] at hm ⊢
    omega

end Sys2Proof.Machine
end

section
/-! PROOF. The step, the acceptance and the micro-step as rules: what they keep of any property of the state. -/

namespace Sys2Proof.Machine

/-! ### The port primitives, for any property of the state -/

/-- A word read ends the command, or goes on with some value. -/
theorem State.memRead_rule {P : State → Prop} {s : State} {op : Opcode} {a : Byte} {w : Width}
    {k : Word → State → State} (fail : ∀ e q, P ((s.event e 0).respond q)) (ok : ∀ v e, P (k v (s.event e 0))) :
    P (s.memRead op a w k) :=
  iteInduction (fun _ => ok _ _) fun _ => fail _ _

/-- A write ends the command, or goes on. -/
theorem State.memWrite_rule {P : State → Prop} {s : State} {op : Opcode} {a : Byte} {w : Width} {v : Word}
    {k : State → State} (fail : ∀ e q, P ((s.event e 0).respond q)) (ok : ∀ e, P (k (s.event e 0))) :
    P (s.memWrite op a w v k) :=
  iteInduction (fun _ => ok _) fun _ => fail _ _

theorem State.memWriteBlock_rule {P : State → Prop} {s : State} {op : Opcode} {a : Byte} {bs : List Byte}
    {k : State → State} (fail : ∀ e q, P ((s.event e 0).respond q)) (ok : ∀ e, P (k (s.event e 0))) :
    P (s.memWriteBlock op a bs k) :=
  iteInduction (fun _ => ok _) fun _ => fail _ _

/-- The sequencer's status read goes on with the mode mirror of the status it brought (R22). -/
theorem State.readStatus_rule {P : State → Prop} {s : State} {op : Opcode} {k : Byte → State → State}
    (fail : ∀ e q, P ((s.event e 0).respond q))
    (ok : ∀ st e, P (k st ((s.event e 0).withRegs (s.regs.sampleMode st)))) : P (s.readStatus op k) :=
  memRead_rule fail fun _ _ => ok _ _

/-- The mode write goes on with the mode and its timeout (R164). -/
theorem State.writeMode_rule {P : State → Prop} {s : State} {op : Opcode} {m : ModeArgs} {k : State → State}
    (fail : ∀ e q, P ((s.event e 0).respond q))
    (ok : ∀ e, P (k ((s.event e 0).withRegs (s.regs.withMode m.mode)))) : P (s.writeMode op m k) :=
  memWrite_rule fail fun _ => ok _

/-- A fetch ends the command, or goes on with a block that fills the cache (R196). -/
theorem State.fetchBlock_rule {P : State → Prop} {s : State} {op : Opcode} {k : ResultBlock → State → State}
    (fail : ∀ e q, P ((s.event e 0).respond q))
    (ok : ∀ b e, P (k b ((s.event e 0).withRegs (s.regs.fillCache b)))) : P (s.fetchBlock op k) := by
  unfold State.fetchBlock
  cases blockOutcome s.nextAnswer 8 with
  | fail => exact fail _ _
  | null => exact fail _ _
  | bytes bs =>
    dsimp only
    cases blockOf? bs with
    | none => exact fail _ _
    | some b => exact ok b _

/-- A handle command answers NotConstructed, or has a handle (R266). -/
theorem State.withHandle_rule {P : State → Prop} {s k : State} {op : Opcode} (none : ∀ q, P (s.respond q))
    (some : s.regs.constructed = true → P k) : P (s.withHandle op k) :=
  iteInduction some fun _ => none _

/-! ### What a micro-step does to the registers -/

/-- What the end of a poll loop or of a fetch leaves of the registers: INIT then has constructed its handle
(R21, R161, R269), the result reads leave them as they are. -/
def ResultUser.finish (u : ResultUser) (r : Regs) : Regs :=
  match u with
  | .init => r.construct
  | .result => r
  | .eco2 => r
  | .etvoc => r

theorem deadlinePassed_eq (u : ResultUser) (s : State) :
    ∃ q, deadlinePassed u s = (s.withRegs (u.finish s.regs)).respond q := by
  cases u <;> exact ⟨_, rfl⟩

theorem deliver_eq (u : ResultUser) (b : ResultBlock) (s : State) :
    ∃ q, deliver u b s = (s.withRegs (u.finish s.regs)).respond q := by
  cases u <;> exact ⟨_, rfl⟩

/-- R22: the commands whose sequencer reads the status register itself. -/
def mirrorReaders : List Opcode := [.init, .pollrdy, .rdresult, .rdeco2, .rdetvoc, .dumpstatus]

theorem userOpcode_mem_mirrorReaders (u : ResultUser) : userOpcode u ∈ mirrorReaders := by
  cases u <;> decide

/-- How a micro-step from `s` to `t` updates the registers, but for INIT's mode write (`inSetmode_cases`):
not at all; the mode mirror; and, at the end of the command, the construction of a handle, the mode, the cache. -/
inductive MicroUpdate (s t : State) : Prop
  | keeps (hr : t.regs = s.regs)
  | samples (st : Byte) (ho : ∀ o, s.pc.opcode? = some o → o ∈ mirrorReaders) (hr : t.regs = s.regs.sampleMode st)
  | timesOut (u : ResultUser) (t0 T : Nat) (st : Byte) (hp : s.pc = .rrPoll u t0 T) (ht : t.pc = .idle)
      (hr : t.regs = u.finish (s.regs.sampleMode st))
  | setsMode (m : ModeArgs) (hp : s.pc = .smWrite m) (ht : t.pc = .idle) (hr : t.regs = s.regs.withMode m.mode)
  | fills (u : ResultUser) (b : ResultBlock) (hp : s.pc = .rrFetch u) (ht : t.pc = .idle)
      (hr : t.regs = u.finish (s.regs.fillCache b))

/-- Every micro-step but INIT's mode write has one of these updates. -/
theorem microStep_updates {s : State} (hm : ∀ m w, s.pc ≠ .inSetmode m w) : MicroUpdate s (microStep s) := by
  have fail (e q) : MicroUpdate s ((s.event e 0).respond q) := .keeps rfl
  have samples {o : Opcode} (ho : s.pc.opcode? = some o) (hr : o ∈ mirrorReaders) (st : Byte) {t : State}
      (ht : t.regs = s.regs.sampleMode st) : MicroUpdate s t :=
    .samples st (fun _ h => Option.some.inj (ho.symm.trans h) ▸ hr) ht
  unfold microStep
  cases hpc : s.pc with
  | idle => exact .keeps rfl
  | inSetmode m w => exact absurd hpc (hm m w)
  | rfRead f => exact State.memRead_rule fail fun _ _ => .keeps rfl
  | wfProbe f v => exact State.memRead_rule fail fun _ _ => .keeps rfl
  | gbRead => exact State.memRead_rule fail fun _ _ => .keeps rfl
  | dsBase st => exact State.memRead_rule fail fun _ _ => .keeps rfl
  | dsHwid st b => exact State.memRead_rule fail fun _ _ => .keeps rfl
  | inHwid m w => exact State.memRead_rule fail fun _ _ => iteInduction (fun _ => .keeps rfl) fun _ => .keeps rfl
  | wfWrite f v => exact State.memWrite_rule fail fun _ => .keeps rfl
  | srWrite => exact State.memWrite_rule fail fun _ => .keeps rfl
  | scWrite e => exact State.memWrite_rule fail fun _ => .keeps rfl
  | sbWrite b => exact State.memWrite_rule fail fun _ => .keeps rfl
  | inAppstart m w => exact State.memWriteBlock_rule fail fun _ => .keeps rfl
  | inSettle m w => exact .keeps rfl
  | rrSleep u t0 T => exact .keeps rfl
  | prRead =>
    exact State.readStatus_rule fail fun st _ => samples (by rw [hpc]; rfl) (by decide) st rfl
  | dsStatus =>
    exact State.readStatus_rule fail fun st _ => samples (by rw [hpc]; rfl) (by decide) st rfl
  | inStatus m w =>
    have init (st) {t : State} := samples (by rw [hpc]; rfl) (by decide : Opcode.init ∈ mirrorReaders) st (t := t)
    exact State.readStatus_rule fail fun st _ => iteInduction (fun _ => init st rfl) fun _ => init st rfl
  | inRecheck m w =>
    have init (st) {t : State} := samples (by rw [hpc]; rfl) (by decide : Opcode.init ∈ mirrorReaders) st (t := t)
    exact State.readStatus_rule fail fun st _ => iteInduction (fun _ => init st rfl) fun _ => init st rfl
  | rrPoll u t0 T =>
    have polled (st) {t : State} := samples (by rw [hpc]; rfl) (userOpcode_mem_mirrorReaders u) st (t := t)
    refine State.readStatus_rule fail fun st e =>
      iteInduction (fun _ => polled st rfl) fun _ => iteInduction (fun _ => ?_) fun _ => polled st rfl
    obtain ⟨q, hq⟩ := deadlinePassed_eq u ((s.event e 0).withRegs (s.regs.sampleMode st))
    rw [hq]
    exact .timesOut u t0 T st hpc rfl rfl
  | smWrite m => exact State.writeMode_rule fail fun _ => .setsMode m hpc rfl rfl
  | rrFetch u =>
    refine State.fetchBlock_rule fail fun b e => ?_
    obtain ⟨q, hq⟩ := deliver_eq u b ((s.event e 0).withRegs (s.regs.fillCache b))
    rw [hq]
    exact .fills u b hpc rfl rfl

/-- INIT's mode write (R161, R164): it fails, or starts the poll loop, or ends the construction. -/
inductive InSetmodeOutcome (m : ModeArgs) (s t : State) : Prop
  | fails (hp : t.pc = .idle) (hr : t.regs = s.regs.dropCache)
  | polls (T : Nat) (hp : t.pc = .rrPoll .init t.now T) (hr : t.regs = s.regs.dropCache.withMode m.mode)
  | constructs (hp : t.pc = .idle) (hr : t.regs = (s.regs.dropCache.withMode m.mode).construct)

theorem inSetmode_cases (m : ModeArgs) (w : Bool) (s : State) : InSetmodeOutcome m s (inSetmode m w s) := by
  unfold inSetmode State.setModeCore
  refine State.writeMode_rule (fun _ _ => .fails rfl rfl) fun _ => ?_
  exact iteInduction (fun _ => .polls _ rfl rfl) fun _ => .constructs rfl rfl

/-- The sequencer goes on to a state that follows, or back to IDLE (R30). -/
theorem microStep_pc {s : State} (h : s.pc ≠ .idle) :
    (microStep s).pc = .idle ∨ s.pc.followedBy (microStep s).pc = true := by
  obtain ⟨e, n, r, -, -, ⟨p, ht, hn, -⟩ | ⟨q, ht, -⟩⟩ := microStep_cases h <;> rw [ht]
  · exact .inr hn
  · exact .inl rfl

/-! ### What the acceptance of a command does to the registers -/

/-- How the acceptance of a command updates the registers: not at all, with the latches of the state it enters in
agreement with them; INIT's new handle (R161); SETMODE's invalid cache (R164); SWRESET's dropped handle (R170); the
values SETCAL sends (R231). -/
inductive AcceptUpdate (i : Instr) (s t : State) : Prop
  | keeps (hp : t.pc.agrees s.regs t.now = true) (hr : t.regs = s.regs)
  | init (m : ModeArgs) (w : Bool) (hi : i = .init m w) (hm : m.mode.toNat ≤ 4) (hp : t.pc = .inHwid m w)
      (hr : t.regs = s.regs.newHandle)
  | setmode (m : ModeArgs) (hi : i = .setmode m) (hm : m.mode.toNat ≤ 4) (hc : s.regs.constructed = true)
      (hp : t.pc = .smWrite m) (hr : t.regs = s.regs.dropCache)
  | swreset (hi : i = .swreset) (hp : t.pc = .srWrite) (hr : t.regs = s.regs.dropHandle)
  | setcal (hum temp : Option Word) (env : Word) (hi : i = .setcal hum temp) (hc : s.regs.constructed = true)
      (hfit : rawTemperature (calibrationTemperature temp s.regs) ≤ 0xFFFF) (hp : t.pc = .scWrite env)
      (hr : t.regs = s.regs.withCalibration (calibrationHumidity hum s.regs) (calibrationTemperature temp s.regs))

/-- R97: the mode check passes exactly for the five defined codes. -/
theorem modeInvalid_iff (m : ModeArgs) : modeInvalid m = true ↔ ¬m.mode.toNat ≤ 4 := by
  simp [modeInvalid]

/-- The three result reads leave the registers as they are (R192). -/
theorem startResult_updates (i : Instr) {u : ResultUser} (hu : u ≠ .init) (w : WaitArg) (s : State) :
    AcceptUpdate i s (startResult u w s) := by
  refine State.withHandle_rule (fun _ => .keeps rfl rfl) fun hc => iteInduction (fun _ => ?_) fun _ => .keeps rfl rfl
  have hu : u.handleAgrees s.regs = true := by
    cases u
    case init => exact absurd rfl hu
    all_goals exact hc
  cases w with
  | immediate => exact .keeps hu rfl
  | derived => exact .keeps (by simp [Pc.agrees, hu]) rfl
  | explicit ms => exact .keeps (by simp [Pc.agrees, hu]) rfl

/-- Every acceptance has one of these updates. -/
theorem accept_updates (i : Instr) (s : State) : AcceptUpdate i s (s.accept i) := by
  have answers (q) : AcceptUpdate i s (s.respond q) := .keeps rfl rfl
  have onHandle {op p} (hp : s.regs.constructed = true → p.agrees s.regs s.now = true) :
      AcceptUpdate i s (s.withHandle op (s.goto p)) := State.withHandle_rule answers fun hc => .keeps (hp hc) rfl
  cases i with
  | rdfield f => exact .keeps rfl rfl
  | wrfield f v =>
    refine iteInduction (fun _ => ?_) fun _ => answers _
    split
    · exact .keeps rfl rfl
    · exact .keeps rfl rfl
  | init m w =>
    refine iteInduction (fun _ => answers _) fun hm => ?_
    rw [modeInvalid_iff, not_not] at hm
    exact .init m w rfl hm rfl rfl
  | setmode m =>
    refine State.withHandle_rule answers fun hc => iteInduction (fun _ => answers _) fun hm => ?_
    rw [modeInvalid_iff, not_not] at hm
    exact .setmode m rfl hm hc rfl rfl
  | swreset => exact .swreset rfl rfl rfl
  | pollrdy => exact onHandle id
  | rdresult w => exact startResult_updates (u := .result) _ nofun w s
  | rdeco2 w => exact startResult_updates (u := .eco2) _ nofun w s
  | rdetvoc w => exact startResult_updates (u := .etvoc) _ nofun w s
  | setcal hum temp =>
    refine State.withHandle_rule answers fun hc => iteInduction (fun _ => ?_) fun _ => answers _
    refine iteInduction (fun _ => answers _) fun hfit => ?_
    exact .setcal hum temp _ rfl hc (Int.not_lt.mp hfit) rfl rfl
  | getbase => exact onHandle id
  | setbase b => exact onHandle id
  | decodeerr e => exact answers _
  | dumpstatus => exact onHandle id

/-! ### What every step keeps, and what every micro-step of one command keeps -/

/-- At IDLE with nothing presented the block waits (R30). -/
theorem step_waiting {s : State} (hp : s.pc = .idle) (h : s.inputs = []) : step s = .next s := by
  simp only [step, State.nextStep, h, hp, if_true]

/-- What the host's side has no part in, and reset, refusals, acceptances and micro-steps keep, every step keeps. -/
theorem step_keeps {P : State → Prop} (host : ∀ s a b, P s → P (s.withHost a b)) (reset : ∀ s, P s → P s.hostReset)
    (refuse : ∀ s q, P s → P (s.respond q)) (accept : ∀ i s, P s → P (s.accept i))
    (micro : ∀ s, s.pc ≠ .idle → P s → P (microStep s)) {s t : State} (hs : P s) (h : step s = .next t) : P t := by
  have busy (hp : s.pc ≠ .idle) (hr : s.inputs.head? ≠ some .reset) (ho : s.inputs.head? ≠ some .observe) : P t := by
    cases (step_running hp hr ho).symm.trans h
    exact complete_keeps micro hs
  cases hi : s.inputs with
  | nil =>
    by_cases hp : s.pc = .idle
    · cases (step_waiting hp hi).symm.trans h
      exact hs
    · exact busy hp (by simp [hi]) (by simp [hi])
  | cons x rest =>
    have hrest : P (s.withInputs rest) := host s _ _ hs
    cases x with
    | reset =>
      cases (step_reset hi).symm.trans h
      exact reset _ hrest
    | observe =>
      cases (step_look hi).symm.trans h
      by_cases hp : s.pc = .idle
      · rw [microStep_idle hp]
        exact host s _ _ hs
      · exact host _ _ _ (micro s hp hs)
    | command w =>
      by_cases hp : s.pc = .idle
      · cases hw : decode w with
        | error e =>
          cases (step_illegal hp hi hw).symm.trans h
          exact refuse _ _ hrest
        | ok i =>
          have hacc := accept i _ hrest
          by_cases hr : rest.head? = some .observe
          · cases (step_watched hp hi hw hr).symm.trans h
            exact hacc
          · cases ((step_command hp hi hw hr).trans (exec_eq_accept i _)).symm.trans h
            exact complete_keeps micro hacc
      · exact busy hp (by simp [hi]) (by simp [hi])

/-- A command in progress stays the same command (R30). -/
theorem microStep_opcode {s : State} {o : Opcode} (h : s.pc.opcode? = some o) :
    (microStep s).pc = .idle ∨ (microStep s).pc.opcode? = some o := by
  have hp : s.pc ≠ .idle := fun hi => by
    rw [hi] at h
    cases h
  obtain ⟨e, n, r, -, -, ⟨p, ht, -, -, ho, -⟩ | ⟨q, ht, -⟩⟩ := microStep_cases hp <;> rw [ht]
  · exact .inr (ho.trans h)
  · exact .inl rfl

theorem accept_opcode (i : Instr) (s : State) :
    (s.accept i).pc = .idle ∨ (s.accept i).pc.opcode? = some i.opcode := by
  obtain ⟨r, p, ht, hp⟩ | ⟨q, ht, -⟩ := accept_cases i s <;> rw [ht]
  · exact .inr hp
  · exact .inl rfl

/-- What holds after the acceptance of a command, and every micro-step of that command keeps, holds at its
response. -/
theorem exec_keeps {P : State → Prop} {i : Instr} {s t : State} (h : exec i s = .next t) (accepted : P (s.accept i))
    (micro : ∀ u, u.pc ≠ .idle → u.pc.opcode? = some i.opcode → P u → P (microStep u)) : P t := by
  rw [exec_eq_accept] at h
  cases h
  refine (complete_keeps (P := fun u => (u.pc = .idle ∨ u.pc.opcode? = some i.opcode) ∧ P u) ?_
    ⟨accept_opcode i s, accepted⟩).2
  intro u hp ⟨ho, hu⟩
  have ho := ho.resolve_left hp
  exact ⟨microStep_opcode ho, micro u hp ho hu⟩

end Sys2Proof.Machine
end

section
/-! PROOF. The invariant of the registers and latches (O13, O14). -/

namespace Sys2Proof.Machine

/-! ### Every register update keeps the invariant of the registers -/

theorem Regs.reset_inv : Regs.reset.Inv := by decide

theorem Regs.Inv.sampleMode {r : Regs} (h : r.Inv) (st : Byte) : (r.sampleMode st).Inv := h

theorem Regs.Inv.dropCache {r : Regs} (h : r.Inv) : r.dropCache.Inv := by
  obtain ⟨hmode, htime, -, hcal⟩ := h
  exact ⟨hmode, htime, nofun, hcal⟩

theorem Regs.Inv.construct {r : Regs} (h : r.Inv) : r.construct.Inv := by
  obtain ⟨hmode, htime, -, hcal⟩ := h
  exact ⟨hmode, htime, fun _ => rfl, hcal⟩

/-- A filled cache needs a handle, or one constructed at once (R21, R25). -/
theorem Regs.Inv.fillCache {r : Regs} (h : r.Inv) (hc : r.constructed = true) (b : ResultBlock) :
    (r.fillCache b).Inv := by
  obtain ⟨hmode, htime, -, hcal⟩ := h
  exact ⟨hmode, htime, fun _ => hc, hcal⟩

theorem Regs.Inv.fillCache_construct {r : Regs} (h : r.Inv) (b : ResultBlock) : (r.fillCache b).construct.Inv := by
  obtain ⟨hmode, htime, -, hcal⟩ := h
  exact ⟨hmode, htime, fun _ => rfl, hcal⟩

/-- R165: the legal modes but Idle are those with a derived timeout, which 32 bits hold. -/
theorem derivedTimeout_of_legal : ∀ code : BitVec 3, code.toNat ≤ 4 →
    ((derivedTimeout code).isSome = true ↔ code ≠ 0) ∧ ∀ t ∈ derivedTimeout code, t < 2 ^ 32 := by
  decide

theorem Regs.Inv.withMode {r : Regs} (h : r.Inv) {code : BitVec 3} (hcode : code.toNat ≤ 4) :
    (r.withMode code).Inv := by
  obtain ⟨-, -, hcache, hcal⟩ := h
  obtain ⟨hsome, hlt⟩ := derivedTimeout_of_legal code hcode
  refine ⟨by simpa using hcode, ⟨by simpa using hsome, fun hv => ?_⟩, by simpa [CacheOwned] using hcache,
    by simpa [CalibrationInRange] using hcal⟩
  rw [withMode_pollTimeoutValid] at hv
  obtain ⟨t, ht⟩ := Option.isSome_iff_exists.mp hv
  simpa [ht] using hlt t ht

/-- Idle has no timeout (R24). -/
theorem Regs.timeoutAgrees_of_noMode {r : Regs} (hv : r.pollTimeoutValid = false) (hm : r.measMode = 0) :
    r.TimeoutAgrees := by
  simp [TimeoutAgrees, hv, hm]

theorem Regs.Inv.dropHandle {r : Regs} (h : r.Inv) : r.dropHandle.Inv := by
  obtain ⟨-, -, -, hcal⟩ := h
  exact ⟨Nat.zero_le _, timeoutAgrees_of_noMode rfl rfl, nofun, hcal⟩

/-- INIT's new handle is good whatever came before it (R161). -/
theorem Regs.newHandle_inv (r : Regs) : r.newHandle.Inv := by
  obtain ⟨-, -, -, hcal⟩ := Regs.reset_inv
  exact ⟨Nat.zero_le _, timeoutAgrees_of_noMode rfl rfl, nofun, hcal⟩

theorem calibrationHumidity_bounds (hum : Option Word) (r : Regs) :
    0 ≤ calibrationHumidity hum r ∧ calibrationHumidity hum r ≤ 51200 := by
  unfold calibrationHumidity clamp Config.humMaxQ9
  split
  · omega
  · split <;> omega

theorem calibrationTemperature_lower (temp : Option Word) (r : Regs) : -12800 ≤ calibrationTemperature temp r :=
  le_max_right _ _

/-- What SETCAL sends fits the calibration registers and lies in their range (R231, R233). -/
theorem Regs.Inv.withCalibration {r : Regs} (h : r.Inv) {hum temp : Int} (hh : 0 ≤ hum ∧ hum ≤ 51200)
    (ht : -12800 ≤ temp ∧ temp ≤ 52735) : (r.withCalibration hum temp).Inv := by
  obtain ⟨hmode, htime, hcache, -⟩ := h
  refine ⟨hmode, htime, hcache, ?_⟩
  rw [CalibrationInRange, withCalibration_calHum, withCalibration_calTemp,
    BitVec.toInt_ofInt_eq_self (by decide) (by omega) (by omega),
    BitVec.toInt_ofInt_eq_self (by decide) (by omega) (by omega)]
  exact ⟨hh, ht⟩

/-- A user of the poll loop ends it on its own handle, or with its handle constructed. -/
theorem Regs.Inv.finish {r : Regs} (h : r.Inv) (u : ResultUser) : (u.finish r).Inv := by
  cases u
  case init => exact h.construct
  all_goals exact h

theorem Regs.Inv.fillCache_finish {r : Regs} (h : r.Inv) {u : ResultUser} (hu : u.handleAgrees r = true)
    (b : ResultBlock) : (u.finish (r.fillCache b)).Inv := by
  cases u
  case init => exact h.fillCache_construct b
  all_goals exact h.fillCache hu b

/-! ### Micro-steps, acceptances, steps -/

/-- Back at IDLE there are no latches. -/
theorem State.inv_of_idle {s : State} (hp : s.pc = .idle) (hr : s.regs.Inv) : s.Inv := ⟨hr, by rw [hp]; rfl⟩

/-- The latches that a state hands on agree with registers that have the same handle, at any later time; INIT's poll
loop, whose start is a new latch, is `inSetmode_keeps_inv`. -/
theorem Pc.agrees_of_followedBy {p q : Pc} {r r' : Regs} {now now' : Nat} (hn : p.followedBy q = true)
    (hm : ∀ m w, p ≠ .inSetmode m w) (hr : r'.constructed = r.constructed) (ht : now ≤ now')
    (h : p.agrees r now = true) : q.agrees r' now' = true := by
  have user (u : ResultUser) : u.handleAgrees r' = u.handleAgrees r := by
    cases u <;> simp only [ResultUser.handleAgrees, hr]
  unfold Pc.followedBy at hn
  split at hn
  all_goals simp_all [Pc.agrees]
  -- What is left is the poll loop's start, which stays in the past.
  all_goals exact h.2.trans ht

theorem inSetmode_keeps_inv {s : State} {m : ModeArgs} {w : Bool} (hp : s.pc = .inSetmode m w) (hs : s.Inv) :
    (inSetmode m w s).Inv := by
  obtain ⟨hregs, hpc⟩ := hs
  rw [hp, Pc.agrees, Bool.and_eq_true, decide_eq_true_eq] at hpc
  obtain ⟨hmode, hc⟩ := hpc
  obtain ⟨ht, hr⟩ | ⟨T, ht, hr⟩ | ⟨ht, hr⟩ := inSetmode_cases m w s
  · exact State.inv_of_idle ht (hr ▸ hregs.dropCache)
  · refine ⟨hr ▸ hregs.dropCache.withMode hmode, ?_⟩
    rw [ht, hr]
    simpa [Pc.agrees, ResultUser.handleAgrees] using hc
  · exact State.inv_of_idle ht (hr ▸ (hregs.dropCache.withMode hmode).construct)

theorem microStep_keeps_inv {s : State} (hp : s.pc ≠ .idle) (hs : s.Inv) : (microStep s).Inv := by
  by_cases hm : ∃ m w, s.pc = .inSetmode m w
  · obtain ⟨m, w, hm⟩ := hm
    have hstep : microStep s = inSetmode m w s := by simp only [microStep, hm]
    exact hstep ▸ inSetmode_keeps_inv hm hs
  have hm (m w) : s.pc ≠ .inSetmode m w := fun h => hm ⟨m, w, h⟩
  obtain ⟨hregs, hpc⟩ := hs
  have goesOn (hr : (microStep s).regs.Inv) (hc : (microStep s).regs.constructed = s.regs.constructed) :
      (microStep s).Inv := by
    obtain hi | hn := microStep_pc hp
    · exact State.inv_of_idle hi hr
    · exact ⟨hr, Pc.agrees_of_followedBy hn hm hc (microStep_growsTo hp).now hpc⟩
  obtain hr | ⟨st, -, hr⟩ | ⟨u, t0, T, st, -, ht, hr⟩ | ⟨m, hsm, ht, hr⟩ | ⟨u, b, hu, ht, hr⟩ := microStep_updates hm
  · exact goesOn (hr ▸ hregs) (by rw [hr])
  · exact goesOn (hr ▸ hregs.sampleMode st) (by rw [hr]; rfl)
  · exact State.inv_of_idle ht (hr ▸ (hregs.sampleMode st).finish u)
  · rw [hsm, Pc.agrees, Bool.and_eq_true, decide_eq_true_eq] at hpc
    obtain ⟨hmode, -⟩ := hpc
    exact State.inv_of_idle ht (hr ▸ hregs.withMode hmode)
  · rw [hu] at hpc
    exact State.inv_of_idle ht (hr ▸ hregs.fillCache_finish hpc b)

theorem accept_keeps_inv (i : Instr) {s : State} (hs : s.Inv) : (s.accept i).Inv := by
  obtain ⟨hregs, -⟩ := hs
  obtain ⟨hp, hr⟩ | ⟨m, w, -, hm, hp, hr⟩ | ⟨m, -, hm, hc, hp, hr⟩ | ⟨-, hp, hr⟩ |
    ⟨hum, temp, env, -, hc, hfit, hp, hr⟩ := accept_updates i s
  · exact ⟨hr ▸ hregs, hr ▸ hp⟩
  · exact ⟨hr ▸ s.regs.newHandle_inv, by rw [hp, hr]; simp [Pc.agrees, hm]⟩
  · exact ⟨hr ▸ hregs.dropCache, by rw [hp, hr]; simp [Pc.agrees, hm, hc]⟩
  · exact ⟨hr ▸ hregs.dropHandle, by rw [hp, hr]; rfl⟩
  · have htemp := calibrationTemperature_lower temp s.regs
    rw [rawTemperature, Config.tempOffsetQ9] at hfit
    have hsent := hregs.withCalibration (calibrationHumidity_bounds hum s.regs) ⟨htemp, by omega⟩
    exact ⟨hr ▸ hsent, by rw [hp, hr]; exact hc⟩

/-- Settles O14: acceptances and micro-steps keep the invariant, hence every step does. -/
theorem stepKeepsInvariant : Obligations.StepKeepsInvariant := fun _ _ hs h =>
  step_keeps (P := State.Inv) (fun _ _ _ hs => hs) (fun _ _ => State.inv_of_idle rfl Regs.reset_inv)
    (fun _ _ ⟨hregs, _⟩ => State.inv_of_idle rfl hregs) (fun i _ => accept_keeps_inv i)
    (fun _ => microStep_keeps_inv) hs h

/-- Settles O13. -/
theorem resetMeetsInvariant : Obligations.ResetMeetsInvariant := State.inv_of_idle rfl Regs.reset_inv

end Sys2Proof.Machine
end

section
/-! PROOF. Who writes which register (O18), and how the cache is filled (O20). -/

namespace Sys2Proof.Machine

/-! ### The column "Written by" (R20) -/

/-- Between `r` and `r'` only registers whose row names the command `o` have changed (R20). -/
structure Regs.WrittenBy (o : Opcode) (r r' : Regs) : Prop where
  constructed : o ∉ [Opcode.init, .swreset] → r'.constructed = r.constructed
  devmode : o ∉ [Opcode.init, .pollrdy, .rdresult, .rdeco2, .rdetvoc, .dumpstatus, .swreset] → r'.devmode = r.devmode
  mode : o ∉ [Opcode.init, .setmode, .swreset] →
    r'.measMode = r.measMode ∧ r'.pollTimeoutValid = r.pollTimeoutValid
  pollTimeout : o ∉ [Opcode.init, .setmode] → r'.pollTimeout = r.pollTimeout
  cacheValid : o ∉ [Opcode.init, .setmode, .rdresult, .rdeco2, .rdetvoc, .swreset] → r'.cacheValid = r.cacheValid
  cacheBytes : o ∉ [Opcode.init, .rdresult, .rdeco2, .rdetvoc] → r'.cacheBytes = r.cacheBytes
  calibration : o ∉ [Opcode.setcal, .init] → r'.calHum = r.calHum ∧ r'.calTemp = r.calTemp

theorem Regs.WrittenBy.refl (o : Opcode) (r : Regs) : r.WrittenBy o r :=
  ⟨fun _ => rfl, fun _ => rfl, fun _ => ⟨rfl, rfl⟩, fun _ => rfl, fun _ => rfl, fun _ => rfl, fun _ => ⟨rfl, rfl⟩⟩

theorem Regs.WrittenBy.trans {o : Opcode} {r r' r'' : Regs} (h : r.WrittenBy o r') (h' : r'.WrittenBy o r'') :
    r.WrittenBy o r'' where
  constructed ho := (h'.constructed ho).trans (h.constructed ho)
  devmode ho := (h'.devmode ho).trans (h.devmode ho)
  mode ho := ⟨(h'.mode ho).1.trans (h.mode ho).1, (h'.mode ho).2.trans (h.mode ho).2⟩
  pollTimeout ho := (h'.pollTimeout ho).trans (h.pollTimeout ho)
  cacheValid ho := (h'.cacheValid ho).trans (h.cacheValid ho)
  cacheBytes ho := (h'.cacheBytes ho).trans (h.cacheBytes ho)
  calibration ho :=
    ⟨(h'.calibration ho).1.trans (h.calibration ho).1, (h'.calibration ho).2.trans (h.calibration ho).2⟩

/-- Every row names INIT. -/
theorem Regs.writtenBy_init (r r' : Regs) : r.WrittenBy .init r' := by constructor <;> simp

theorem Regs.sampleMode_writtenBy {o : Opcode} (ho : o ∈ mirrorReaders) (r : Regs) (st : Byte) :
    r.WrittenBy o (r.sampleMode st) :=
  have hrow : o ∈ mirrorReaders ++ [.swreset] := List.mem_append_left _ ho
  { Regs.WrittenBy.refl o r with devmode := fun hn => absurd hrow hn }

theorem Regs.dropCache_writtenBy (r : Regs) : r.WrittenBy .setmode r.dropCache := by constructor <;> simp

theorem Regs.withMode_writtenBy (r : Regs) (code : BitVec 3) : r.WrittenBy .setmode (r.withMode code) := by
  constructor <;> simp

theorem Regs.dropHandle_writtenBy (r : Regs) : r.WrittenBy .swreset r.dropHandle := by constructor <;> simp

theorem Regs.withCalibration_writtenBy (r : Regs) (h t : Int) : r.WrittenBy .setcal (r.withCalibration h t) := by
  constructor <;> simp

/-- The end of a poll loop writes the handle for INIT only (R21, R161). -/
theorem Regs.sampleMode_finish_writtenBy (r : Regs) (u : ResultUser) (st : Byte) :
    r.WrittenBy (userOpcode u) (u.finish (r.sampleMode st)) := by
  cases u
  case init => exact r.writtenBy_init _
  all_goals exact r.sampleMode_writtenBy (by decide) st

theorem Regs.fillCache_finish_writtenBy (r : Regs) (u : ResultUser) (b : ResultBlock) :
    r.WrittenBy (userOpcode u) (u.finish (r.fillCache b)) := by
  cases u
  case init => exact r.writtenBy_init _
  all_goals constructor <;> simp [userOpcode, ResultUser.finish]

/-! ### Through a command -/

theorem accept_writtenBy (i : Instr) (s : State) : s.regs.WrittenBy i.opcode (s.accept i).regs := by
  obtain ⟨-, hr⟩ | ⟨m, w, rfl, -, -, hr⟩ | ⟨m, rfl, -, -, -, hr⟩ | ⟨rfl, -, hr⟩ | ⟨hum, temp, env, rfl, -, -, -, hr⟩ :=
    accept_updates i s <;> rw [hr]
  · exact .refl _ _
  · exact s.regs.writtenBy_init _
  · exact s.regs.dropCache_writtenBy
  · exact s.regs.dropHandle_writtenBy
  · exact s.regs.withCalibration_writtenBy _ _

theorem microStep_writtenBy {s : State} {o : Opcode} (ho : s.pc.opcode? = some o) :
    s.regs.WrittenBy o (microStep s).regs := by
  by_cases hm : ∃ m w, s.pc = .inSetmode m w
  · obtain ⟨m, w, hm⟩ := hm
    rw [hm] at ho
    cases ho
    exact s.regs.writtenBy_init _
  obtain hr | ⟨st, hread, hr⟩ | ⟨u, t0, T, st, hp, -, hr⟩ | ⟨m, hp, -, hr⟩ | ⟨u, b, hp, -, hr⟩ :=
    microStep_updates fun m w h => hm ⟨m, w, h⟩
  all_goals rw [hr]
  · exact .refl _ _
  · exact s.regs.sampleMode_writtenBy (hread o ho) st
  all_goals
    rw [hp] at ho
    cases ho
  · exact s.regs.sampleMode_finish_writtenBy u st
  · exact s.regs.withMode_writtenBy _
  · exact s.regs.fillCache_finish_writtenBy u b

/-- Settles O18: the acceptance of a command and each of its micro-steps write only what R20 lets them write. -/
theorem registersWrittenOnlyByTheirCommands : Obligations.RegistersWrittenOnlyByTheirCommands := by
  intro i s t h
  obtain ⟨hconstructed, hdevmode, hmode, htimeout, hvalid, hbytes, hcal⟩ : s.regs.WrittenBy i.opcode t.regs :=
    exec_keeps (P := fun u => s.regs.WrittenBy i.opcode u.regs) h (accept_writtenBy i s) fun _ _ ho hu =>
      hu.trans (microStep_writtenBy ho)
  exact ⟨hconstructed, hdevmode, hmode, htimeout, hvalid, hbytes, hcal⟩

/-! ### Where the contents of the cache come from (R25, R196, R202) -/

/-- The last event is the block read of the eight bytes the cache holds. -/
def State.JustFilled (s : State) : Prop :=
  s.regs.cacheValid = true ∧ s.trace.getLast? = some (.memReadBlock 0x02 8 (.bytes
    [s.regs.cacheBytes.b0, s.regs.cacheBytes.b1, s.regs.cacheBytes.b2, s.regs.cacheBytes.b3,
      s.regs.cacheBytes.b4, s.regs.cacheBytes.b5, s.regs.cacheBytes.b6, s.regs.cacheBytes.b7]))

/-- A command that started with the registers `r` has the cache of `r`, or an invalid one, or has just filled it and
answered. -/
def State.CacheFrom (s : State) (r : Regs) : Prop :=
  (s.regs.cacheBytes = r.cacheBytes ∧ (s.regs.cacheValid = true → r.cacheValid = true)) ∨
    (s.pc = .idle ∧ s.JustFilled)

theorem accept_cacheFrom (i : Instr) (s : State) : (s.accept i).CacheFrom s.regs := by
  obtain ⟨-, hr⟩ | ⟨m, w, -, -, -, hr⟩ | ⟨m, -, -, -, -, hr⟩ | ⟨-, -, hr⟩ | ⟨hum, temp, env, -, -, -, -, hr⟩ :=
    accept_updates i s
  all_goals exact .inl (by simp [hr])

/-- Only the fetch reads a block, and it ends the command (R30, R196). -/
theorem rrFetch_of_access {p : Pc} (h : p.access? = some (false, 0x02, 8)) : ∃ u, p = .rrFetch u := by
  have width (w : Width) : w.bits / 8 ≠ 8 := by cases w <;> decide
  cases p <;> simp_all [Pc.access?]

theorem microStep_cacheFrom {s : State} {r : Regs} (hp : s.pc ≠ .idle) (hs : s.CacheFrom r) :
    (microStep s).CacheFrom r := by
  obtain ⟨hbytes, hvalid⟩ := hs.resolve_right fun ⟨hi, _⟩ => hp hi
  obtain ⟨e, n, r', hacc, hkept, hout⟩ := microStep_cases hp
  have hregs : (microStep s).regs = r' := by
    obtain ⟨p, ht, -⟩ | ⟨q, ht, -⟩ := hout <;> rw [ht] <;> rfl
  obtain ⟨hbytes', hvalid'⟩ | ⟨hfill, he⟩ := hkept.cache
  · rw [State.CacheFrom, hregs]
    exact .inl ⟨hbytes'.trans hbytes, fun h => hvalid (hvalid' h)⟩
  · obtain ⟨u, hu⟩ := rrFetch_of_access (by rw [← hacc, he]; rfl)
    have hidle : (microStep s).pc = .idle := (microStep_pc hp).resolve_right (by simp [hu, Pc.followedBy])
    have htrace : (microStep s).trace = s.trace ++ [e] := by
      obtain ⟨p, ht, -⟩ | ⟨q, ht, -⟩ := hout <;> rw [ht] <;> rfl
    refine .inr ⟨hidle, hregs ▸ hfill, ?_⟩
    rw [htrace, List.getLast?_concat, he, hregs]

/-- Settles O20: the cache is that of before the command (`State.CacheFrom`) until the fetch fills it, which ends the
command. -/
theorem cacheFilledOnlyByFullBlock : Obligations.CacheFilledOnlyByFullBlock := by
  intro i s t h hchanged
  have hfrom : t.CacheFrom s.regs :=
    exec_keeps (P := (State.CacheFrom · s.regs)) h (accept_cacheFrom i s) fun _ hp _ => microStep_cacheFrom hp
  obtain ⟨hbytes, hvalid⟩ | ⟨-, hfill⟩ := hfrom
  · obtain hne | ⟨hnow, hbefore⟩ := hchanged
    · exact absurd hbytes hne
    · exact absurd (hbefore.symm.trans (hvalid hnow)) nofun
  · exact hfill

end Sys2Proof.Machine
end

section
/-! PROOF. The step at IDLE, the command in progress, the reset values, the first state of each command (O8, O9, O10,
O12, O60). -/

namespace Sys2Proof.Machine

/-- Settles O10: the step is the rest of the command, which answers once (`complete_answeredSince`). -/
theorem busyCommandFinishes : Obligations.BusyCommandFinishes := by
  intro s hp hr ho
  have hs : s.AnsweredSince s.responses := ⟨fun _ => rfl, fun hi => absurd hi hp⟩
  obtain ⟨r, hr'⟩ := (complete_answeredSince hs).idle (complete_pc s)
  exact ⟨s.complete, r, step_running hp hr ho, complete_pc s, complete_inputs s, hr'⟩

/-- Settles O8: `step_command` and `step_watched`, with the meaning of a command as `exec_eq_accept` says it. -/
theorem stepRunsDecodedCommand : Obligations.StepRunsDecodedCommand := fun _ _ _ i hp hi hw =>
  ⟨step_command hp hi hw, fun hr => ⟨step_watched hp hi hw hr, exec_eq_accept i _⟩⟩

/-- Settles O9: `step_waiting`; and a look takes no micro-step at IDLE. -/
theorem idleWaits : Obligations.IdleWaits := by
  refine ⟨fun s => step_waiting, fun s rest hp hi => ?_⟩
  have hlook : s.outputs = ⟨false, s.cacheOut⟩ := by simp [State.outputs, State.busy, hp]
  rw [step_look hi, microStep_idle hp, hlook]
  rfl

/-- Settles O12. -/
theorem resetRegisterValues : Obligations.ResetRegisterValues := by
  unfold Obligations.ResetRegisterValues
  decide

/-! ### The first state of a command -/

/-- No acceptance issues a transaction or sleeps (R30). -/
theorem accept_trace (i : Instr) (s : State) : (s.accept i).trace = s.trace := by
  obtain ⟨r, p, ht, -⟩ | ⟨q, ht, -⟩ := accept_cases i s <;> rw [ht] <;> rfl

/-- A well-formed descriptor's offset is the derived one, supplied or not (R94, R95 (d)). -/
theorem fieldOffset_of_wf {f : RegisterField} (h : f.wf = true) : fieldOffset f = ctz f.mask := by
  simp only [RegisterField.wf, Bool.and_eq_true] at h
  obtain ⟨-, hoff⟩ := h
  unfold RegisterField.offsetAgrees at hoff
  unfold fieldOffset
  split
  case h_1 o ho => simpa [ho] using hoff
  case h_2 => rfl

/-- R94: full-width means `mask = 2^w - 1`. -/
theorem fullWidth_iff (f : RegisterField) : fullWidth f = true ↔ f.mask.toNat = 2 ^ f.width.bits - 1 := by
  rw [fullWidth, beq_iff_eq, ← BitVec.toNat_inj, f.width.toNat_ones]

/-- R132: a value that fits a well-formed field. -/
theorem fits_of_wf {f : RegisterField} {v : Word} (hf : f.wf = true) (hv : v &&& ~~~(f.mask >>> ctz f.mask) = 0) :
    fits f v = true := by
  rw [fits, valmask, fieldOffset_of_wf hf, hv, beq_self_eq_true]

/-- R266: on a constructed handle a handle command goes ahead. -/
theorem State.withHandle_constructed {s : State} (h : s.regs.constructed = true) (op : Opcode) (k : State) :
    s.withHandle op k = k := if_pos h

/-- R192: where the preconditions of a result read hold, its wait operand chooses the first state. -/
theorem startResult_available {s : State} (hc : s.regs.constructed = true) (ha : s.regs.devmode = .app)
    (hm : s.regs.measMode ≠ 0) (u : ResultUser) :
    (startResult u .immediate s).pc = .rrFetch u ∧
      (startResult u .derived s).pc = .rrPoll u s.now s.regs.pollTimeout.toNat ∧
      ∀ ms, (startResult u (.explicit ms) s).pc = .rrPoll u s.now ms.toNat := by
  have havail : resultAvailable s.regs = true := by simpa [resultAvailable, ha] using hm
  simp [startResult, State.withHandle_constructed hc, havail]

theorem accept_wrfield {f : RegisterField} {v : Word} (h : fits f v = true) (s : State) :
    s.accept (.wrfield f v) = s.goto (if fullWidth f then .wfWrite f v else .wfProbe f v) := if_pos h

theorem accept_init {m : ModeArgs} (hm : m.mode.toNat ≤ 4) (w : Bool) (s : State) :
    s.accept (.init m w) = (s.withRegs s.regs.newHandle).goto (.inHwid m w) :=
  if_neg fun h => (modeInvalid_iff m).mp h hm

theorem accept_setmode {s : State} {m : ModeArgs} (hc : s.regs.constructed = true) (hm : m.mode.toNat ≤ 4) :
    s.accept (.setmode m) = (s.withRegs s.regs.dropCache).goto (.smWrite m) :=
  (State.withHandle_constructed hc _ _).trans (if_neg fun h => (modeInvalid_iff m).mp h hm)

/-- R231, R233: SETCAL goes ahead in App where the raw temperature fits its half. -/
theorem accept_setcal_pc {s : State} {hum temp : Option Word} (hc : s.regs.constructed = true)
    (ha : s.regs.devmode = .app) (hfit : rawTemperature (calibrationTemperature temp s.regs) ≤ 0xFFFF) :
    ∃ env, (s.accept (.setcal hum temp)).pc = .scWrite env := by
  rw [State.accept, startSetcal, State.withHandle_constructed hc, if_pos ha, sendCalibration,
    if_neg (not_lt_of_ge hfit)]
  exact ⟨_, rfl⟩

/-- Settles O60: command by command. -/
theorem acceptanceEntersFirstState : Obligations.AcceptanceEntersFirstState := by
  intro s
  have onHandle {op : Opcode} {p : Pc} (hc : s.regs.constructed = true) : (s.withHandle op (s.goto p)).pc = p := by
    rw [State.withHandle_constructed hc, State.goto_pc]
  refine ⟨fun i => accept_trace i s, fun f => rfl, ?wrfield, ?init, rfl, rfl, fun hc => ⟨?setmode, onHandle hc,
    onHandle hc, fun b => onHandle hc, onHandle hc⟩, fun hc ha => ⟨?setcal, ?results⟩⟩
  case wrfield =>
    intro f v hf hv
    rw [accept_wrfield (fits_of_wf hf hv), State.goto_pc]
    exact ⟨fun hw => if_pos ((fullWidth_iff f).mpr hw), fun hw => if_neg (mt (fullWidth_iff f).mp hw)⟩
  case init =>
    intro m w hm
    rw [accept_init hm]
    exact ⟨rfl, rfl⟩
  case setmode =>
    intro m hm
    rw [accept_setmode hc hm]
    exact ⟨rfl, rfl⟩
  case setcal =>
    intro hum temp hfit
    refine accept_setcal_pc hc ha ?_
    rw [rawTemperature, calibrationTemperature, max_comm]
    cases temp <;> exact hfit
  case results =>
    intro hm ms
    obtain ⟨hi, hd, he⟩ := startResult_available hc ha hm .result
    obtain ⟨hi2, hd2, he2⟩ := startResult_available hc ha hm .eco2
    obtain ⟨hi3, hd3, he3⟩ := startResult_available hc ha hm .etvoc
    exact ⟨hi, hi2, hi3, hd, hd2, hd3, he ms, he2 ms, he3 ms⟩

end Sys2Proof.Machine
end

section
/-! PROOF. The transactions of a command: how a failed one is reported (O16), which ones it may issue (O17), and the
byte order of their values (O22). -/

namespace Sys2Proof.Machine

/-! ### How a failed transaction is reported (R55, R263) -/

/-- What the response `r` of a command that answers under `op` says of its events: none before the last failed; a
failed last one is reported with its direction and address; TransportError reports nothing else. -/
structure FailureReported (op : Byte) (evs : List BusEvent) (r : Response) : Prop where
  earlier : ∀ e ∈ evs.dropLast, e.failed = false
  last : ∀ e ∈ evs.getLast?, e.failed = true →
    ∃ wr a n, e.access? = some (wr, a, n) ∧ r = transportFailure op wr a
  transport : r.status = .transportError → ∃ e ∈ evs.getLast?, e.failed = true

/-- From the acceptance of `i` in `s` to `t`: the command is in progress and no event failed, or it has answered and
reported a failed one. -/
inductive FailsOnlyAtEnd (i : Instr) (s t : State) : Prop
  | inProgress (evs : List BusEvent) (hp : t.pc ≠ .idle) (htrace : t.trace = s.trace ++ evs)
      (hresp : t.responses = s.responses) (hok : ∀ e ∈ evs, e.failed = false)
  | answered (evs : List BusEvent) (r : Response) (hp : t.pc = .idle) (htrace : t.trace = s.trace ++ evs)
      (hresp : t.responses = s.responses ++ [r]) (hrep : FailureReported i.opcode.byte evs r)

/-- A command answered at its acceptance has issued nothing, and reports no transaction. -/
theorem FailureReported.of_no_events {op : Byte} {r : Response} (h : r.status ≠ .transportError) :
    FailureReported op [] r :=
  ⟨nofun, nofun, fun hr => absurd hr h⟩

/-- Where no earlier event failed, it is enough what the response says of the last one. -/
theorem Reported.failureReported {p : Pc} {e : BusEvent} {q : Response} {o : Opcode} {evs : List BusEvent}
    (h : Reported p e q) (ho : p.opcode? = some o) (he : e.access? = p.access?)
    (hok : ∀ x ∈ evs, x.failed = false) : FailureReported o.byte (evs ++ [e]) q := by
  have hop : q.op = o.byte := by
    obtain ⟨o', ho', hq⟩ := h.op
    rwa [Option.some.inj (ho.symm.trans ho')]
  refine ⟨by rwa [List.dropLast_concat], ?last, fun hq => ⟨e, List.getLast?_concat, h.transport hq⟩⟩
  intro x hx hfailed
  obtain rfl : e = x := Option.some.inj (List.getLast?_concat.symm.trans hx)
  obtain ⟨wr, a, n, hacc, hq⟩ := h.failed hfailed
  exact ⟨wr, a, n, he.trans hacc, hop ▸ hq⟩

theorem accept_failsOnlyAtEnd (i : Instr) (s : State) : FailsOnlyAtEnd i s (s.accept i) := by
  obtain ⟨r, p, ht, hp⟩ | ⟨q, ht, -, hq⟩ := accept_cases i s <;> rw [ht]
  · refine .inProgress [] (fun (hi : p = .idle) => ?_) (List.append_nil _).symm rfl nofun
    cases hi
    cases hp
  · exact .answered [] q rfl (List.append_nil _).symm rfl (.of_no_events hq)

theorem microStep_failsOnlyAtEnd {i : Instr} {s t : State} (hp : t.pc ≠ .idle) (ho : t.pc.opcode? = some i.opcode)
    (h : FailsOnlyAtEnd i s t) : FailsOnlyAtEnd i s (microStep t) := by
  cases h with
  | answered evs r hi => exact absurd hi hp
  | inProgress evs _ htrace hresp hok =>
    obtain ⟨e, n, r, hacc, -, ⟨p, ht, -, hbusy, -, he⟩ | ⟨q, ht, hrep⟩⟩ := microStep_cases hp <;> rw [ht]
    all_goals
      have htrace' : t.trace ++ [e] = s.trace ++ (evs ++ [e]) := by rw [htrace, List.append_assoc]
    · refine .inProgress (evs ++ [e]) hbusy htrace' hresp fun x hx => ?_
      obtain hx | hx := List.mem_append.mp hx
      · exact hok x hx
      · rwa [List.mem_singleton.mp hx]
    · exact .answered (evs ++ [e]) q rfl htrace' (congrArg (· ++ [q]) hresp) (hrep.failureReported ho hacc hok)

/-- Settles O16: a command goes on only after an event that did not fail (`FailsOnlyAtEnd`), so a failed one is the
last, and the micro-step that answers reports it. -/
theorem firstFailureEndsCommand : Obligations.FirstFailureEndsCommand := by
  intro i s t h
  have hend : FailsOnlyAtEnd i s t :=
    exec_keeps h (accept_failsOnlyAtEnd i s) fun _ => microStep_failsOnlyAtEnd
  cases hend with
  | answered evs r _ htrace hresp hrep => exact ⟨evs, r, htrace, hresp, hrep.earlier, hrep.last, hrep.transport⟩
  | inProgress evs hp =>
    rw [exec_eq_accept] at h
    cases h
    exact absurd (complete_pc _) hp

/-! ### Which transactions a command may issue (R61) -/

/-- The transactions that the rest of a command can issue, from a sequencer state on (R30, R61). -/
def Pc.remainingAccesses : Pc → List BusAccess
  | .idle => []
  | .rfRead f => [(false, f.addr, f.width.bits / 8)]
  | .wfProbe f _ => [(false, f.addr, f.width.bits / 8), (true, f.addr, f.width.bits / 8)]
  | .wfWrite f _ => [(true, f.addr, f.width.bits / 8)]
  | .inHwid _ _ => (false, 0x20, 1) :: (true, 0xF4, 0) :: (true, 0x01, 1) :: resultAccesses
  | .inStatus _ _ => (true, 0xF4, 0) :: (true, 0x01, 1) :: resultAccesses
  | .inAppstart _ _ => (true, 0xF4, 0) :: (true, 0x01, 1) :: resultAccesses
  | .inSettle _ _ => (true, 0x01, 1) :: resultAccesses
  | .inRecheck _ _ => (true, 0x01, 1) :: resultAccesses
  | .inSetmode _ _ => (true, 0x01, 1) :: resultAccesses
  | .smWrite _ => [(true, 0x01, 1)]
  | .srWrite => [(true, 0xFF, 4)]
  | .prRead => [(false, 0x00, 1)]
  | .rrPoll _ _ _ => resultAccesses
  | .rrSleep _ _ _ => resultAccesses
  | .rrFetch _ => resultAccesses
  | .scWrite _ => [(true, 0x05, 4)]
  | .gbRead => [(false, 0x11, 2)]
  | .sbWrite _ => [(true, 0x11, 2)]
  | .dsStatus => [(false, 0x00, 1), (false, 0x11, 2), (false, 0x20, 1)]
  | .dsBase _ => [(false, 0x11, 2), (false, 0x20, 1)]
  | .dsHwid _ _ => [(false, 0x20, 1)]

/-- The transaction of a state is the first of those that remain. -/
theorem Pc.access?_mem_remainingAccesses {p : Pc} {a : BusAccess} (h : p.access? = some a) :
    a ∈ p.remainingAccesses := by
  cases p <;> simp_all [Pc.access?, Pc.remainingAccesses, resultAccesses]

/-- The next state of a command leaves no transaction that the state before it did not (R30, the column "Next"). -/
theorem Pc.remainingAccesses_subset {p q : Pc} (h : p.followedBy q = true) :
    q.remainingAccesses ⊆ p.remainingAccesses := by
  unfold Pc.followedBy at h
  split at h
  all_goals simp_all [Pc.remainingAccesses, resultAccesses]

/-- What the command in progress in `s` can still issue lies in `l`. -/
def State.IssuesWithin (l : List BusAccess) (s : State) : Prop := s.pc.remainingAccesses ⊆ l

theorem accept_issuesWithin (i : Instr) (s : State) : (s.accept i).IssuesWithin (allowedAccesses i) := by
  have answers {l} (q) : (s.respond q).IssuesWithin l := List.nil_subset l
  have onHandle {op p} : (s.withHandle op (s.goto p)).IssuesWithin p.remainingAccesses :=
    State.withHandle_rule answers fun _ => List.Subset.refl _
  have result (u w) : (startResult u w s).IssuesWithin resultAccesses := by
    refine State.withHandle_rule answers fun _ => iteInduction (fun _ => ?_) fun _ => answers _
    cases w <;> exact List.Subset.refl _
  cases i with
  | rdfield f => exact List.Subset.refl _
  | wrfield f v =>
    refine iteInduction (fun _ => ?_) fun _ => answers _
    split
    · exact List.subset_cons_self _ _
    · exact List.Subset.refl _
  | init m w => exact iteInduction (fun _ => answers _) fun _ => List.Subset.refl _
  | setmode m =>
    exact State.withHandle_rule answers fun _ => iteInduction (fun _ => answers _) fun _ => List.Subset.refl _
  | swreset => exact List.Subset.refl _
  | pollrdy => exact onHandle
  | rdresult w => exact result .result w
  | rdeco2 w => exact result .eco2 w
  | rdetvoc w => exact result .etvoc w
  | setcal hum temp =>
    refine State.withHandle_rule answers fun _ => iteInduction (fun _ => ?_) fun _ => answers _
    exact iteInduction (fun _ => answers _) fun _ => List.Subset.refl _
  | getbase => exact onHandle
  | setbase b => exact onHandle
  | decodeerr e => exact answers _
  | dumpstatus => exact onHandle

theorem microStep_issuesWithin {s : State} {l : List BusAccess} (hp : s.pc ≠ .idle) (hs : s.IssuesWithin l) :
    (microStep s).IssuesWithin l := by
  obtain hi | hn := microStep_pc hp
  · rw [State.IssuesWithin, hi]
    exact List.nil_subset l
  · exact List.Subset.trans (Pc.remainingAccesses_subset hn) hs

/-- A micro-step logs one event, the transaction of its state or a sleep. -/
theorem microStep_trace {s : State} (hp : s.pc ≠ .idle) :
    ∃ e, (microStep s).trace = s.trace ++ [e] ∧ e.access? = s.pc.access? := by
  obtain ⟨e, n, r, hacc, -, ⟨p, ht, -⟩ | ⟨q, ht, -⟩⟩ := microStep_cases hp <;> exact ⟨e, by rw [ht]; rfl, hacc⟩

/-- From `s` to `t` only transactions in `l` were issued. -/
def State.IssuedWithin (l : List BusAccess) (s t : State) : Prop :=
  ∃ evs, t.trace = s.trace ++ evs ∧ ∀ e ∈ evs, ∀ a, e.access? = some a → a ∈ l

theorem microStep_issuedWithin {s t : State} {l : List BusAccess} (hp : t.pc ≠ .idle) (ht : t.IssuesWithin l)
    (h : s.IssuedWithin l t) : s.IssuedWithin l (microStep t) := by
  obtain ⟨evs, htrace, hevs⟩ := h
  obtain ⟨e, he, hacc⟩ := microStep_trace hp
  refine ⟨evs ++ [e], by rw [he, htrace, List.append_assoc], fun x hx a ha => ?_⟩
  obtain hx | hx := List.mem_append.mp hx
  · exact hevs x hx a ha
  · rw [List.mem_singleton.mp hx, hacc] at ha
    exact ht (Pc.access?_mem_remainingAccesses ha)

/-- Settles O17: the state a command enters leaves it only transactions of its row, and each micro-step issues one of
those that remain and leaves no others. -/
theorem commandsIssueOnlyTheirAccesses : Obligations.CommandsIssueOnlyTheirAccesses := by
  intro i s t h
  have accepted : s.IssuedWithin (allowedAccesses i) (s.accept i) :=
    ⟨[], by rw [accept_trace, List.append_nil], nofun⟩
  obtain ⟨-, hissued⟩ : t.IssuesWithin (allowedAccesses i) ∧ s.IssuedWithin (allowedAccesses i) t :=
    exec_keeps (P := fun u => u.IssuesWithin (allowedAccesses i) ∧ s.IssuedWithin (allowedAccesses i) u) h
      ⟨accept_issuesWithin i s, accepted⟩ fun _ hp _ ⟨hw, hu⟩ =>
        ⟨microStep_issuesWithin hp hw, microStep_issuedWithin hp hw hu⟩
  exact hissued

/-! ### The byte order of the values (R51, R52, R58) -/

/-- Bytes in bus order are digits, the first one most significant. -/
theorem toNat_append_eq_add {m n : Nat} (x : BitVec m) (y : BitVec n) :
    (x ++ y).toNat = x.toNat * 2 ^ n + y.toNat := by
  rw [BitVec.toNat_append, ← Nat.shiftLeft_add_eq_or_of_lt y.isLt, Nat.shiftLeft_eq]

theorem toNat_wordOf_w8 (a : Answer) : (wordOf a .w8).toNat = a.b0.toNat :=
  BitVec.toNat_setWidth_of_le (by decide)

theorem toNat_wordOf_w16 (a : Answer) : (wordOf a .w16).toNat = a.b0.toNat * 2 ^ 8 + a.b1.toNat :=
  (BitVec.toNat_setWidth_of_le (by decide)).trans (toNat_append_eq_add _ _)

theorem toNat_wordOf_w32 (a : Answer) : (wordOf a .w32).toNat =
    a.b0.toNat * 2 ^ 24 + a.b1.toNat * 2 ^ 16 + a.b2.toNat * 2 ^ 8 + a.b3.toNat := by
  simp only [wordOf, toNat_append_eq_add]
  omega

/-- The byte of `v` at bit `k`, as the digit of its value. -/
theorem toNat_byteAt (v : Word) (k : Nat) : (v.extractLsb' k 8).toNat = v.toNat / 2 ^ k % 2 ^ 8 := by
  rw [BitVec.extractLsb'_toNat, Nat.shiftRight_eq_div_pow]

/-- R58: the bytes a write drives, read back in bus order, are the value written. -/
theorem wordOf_of_busBytes {a : Answer} {w : Width} {v : Word} (hv : v.toNat < 2 ^ w.bits)
    (h : busBytes v w = [a.b0, a.b1, a.b2, a.b3].take (w.bits / 8)) : wordOf a w = v := by
  apply BitVec.eq_of_toNat_eq
  cases w with
  | w8 =>
    obtain ⟨h0, -⟩ := List.cons_eq_cons.mp h
    rw [toNat_wordOf_w8, ← h0, toNat_byteAt]
    simp only [Width.bits] at hv
    omega
  | w16 =>
    obtain ⟨h0, h⟩ := List.cons_eq_cons.mp h
    obtain ⟨h1, -⟩ := List.cons_eq_cons.mp h
    rw [toNat_wordOf_w16, ← h0, ← h1, toNat_byteAt, toNat_byteAt]
    simp only [Width.bits] at hv
    omega
  | w32 =>
    obtain ⟨h0, h⟩ := List.cons_eq_cons.mp h
    obtain ⟨h1, h⟩ := List.cons_eq_cons.mp h
    obtain ⟨h2, h⟩ := List.cons_eq_cons.mp h
    obtain ⟨h3, -⟩ := List.cons_eq_cons.mp h
    rw [toNat_wordOf_w32, ← h0, ← h1, ← h2, ← h3, toNat_byteAt, toNat_byteAt, toNat_byteAt, toNat_byteAt]
    omega

/-- Settles O22: the values of the three reads, and `wordOf_of_busBytes`. -/
theorem bigEndianBothWays : Obligations.BigEndianBothWays :=
  ⟨fun a => ⟨toNat_wordOf_w8 a, toNat_wordOf_w16 a, toNat_wordOf_w32 a⟩, fun _ _ _ => wordOf_of_busBytes⟩

end Sys2Proof.Machine
end

section
/-! PROOF. The command word: the decoder and the encoder are each other's inverse (O1, O2, O3), and what the decoder
refuses (O5, O6, O7). -/

namespace Sys2Proof

/-! ### Checks and bits -/

/-- A decoder that goes on only where a check holds. -/
theorem checked_eq_ok_iff {α : Type} {P : Prop} [Decidable P] {e : DecodeError} {r : Except DecodeError α} {y : α} :
    (if P then r else .error e) = .ok y ↔ P ∧ r = .ok y := by
  split <;> simp [*]

/-- A decoder that goes on only where a fault is absent. -/
theorem refused_eq_ok_iff {α : Type} {P : Prop} [Decidable P] {e : DecodeError} {r : Except DecodeError α} {y : α} :
    (if P then .error e else r) = .ok y ↔ ¬P ∧ r = .ok y := by
  split <;> simp [*]

theorem map_eq_ok_iff {α β : Type} {r : Except DecodeError α} {g : α → β} {y : β} :
    r.map g = .ok y ↔ ∃ x, r = .ok x ∧ g x = y := by
  cases r <;> simp [Except.map]

/-- A bit and the truth value it encodes. -/
theorem beq_one_eq_iff {b : BitVec 1} {x : Bool} : (b == 1#1) = x ↔ BitVec.ofBool x = b := by
  obtain rfl | rfl := b.eq_zero_or_eq_one <;> cases x <;> decide

theorem ofBool_beq_one (b : BitVec 1) : BitVec.ofBool (b == 1#1) = b := beq_one_eq_iff.mp rfl

theorem beq_one_ofBool (x : Bool) : (BitVec.ofBool x == 1#1) = x := beq_one_eq_iff.mpr rfl

/-- A bit of a word, as a field of one bit. -/
theorem getLsbD_eq_field (w : Command) (k : Nat) : w.getLsbD k = (w.extractLsb' k 1 == 1#1) := by
  have h : (w.extractLsb' k 1).getLsbD 0 = w.getLsbD k := by simp
  obtain h1 | h1 := (w.extractLsb' k 1).eq_zero_or_eq_one <;> rw [← h, h1] <;> rfl

theorem and_eq_self {n : Nat} {m : BitVec n} (h : m = BitVec.allOnes n) (x : BitVec n) : x &&& m = x := by
  rw [h, BitVec.and_allOnes]

theorem upperHalf_eq_zero {x : Word} (h : x &&& 0xFFFF0000 = 0) : x.extractLsb' 16 16 = 0 := by
  have h := congrArg (BitVec.extractLsb' 16 16) h
  rwa [BitVec.extractLsb'_and, and_eq_self (by decide)] at h

/-! ### The table's rows (R92, R93, R104) -/

theorem CmdFields.toWord_injective : Function.Injective CmdFields.toWord :=
  Function.LeftInverse.injective CmdFields.ofWord_toWord

theorem Opcode.byte_injective : Function.Injective Opcode.byte := fun o o' h =>
  Option.some.inj (by rw [← o.ofByte?_byte, h, o'.ofByte?_byte])

/-- Where the bits of the format's mask are those of a blank command, its opcode stands and no unused bit is set. -/
theorem CmdFields.unusedZero_of_mask {c : CmdFields} {fmt : Format} {o : Opcode}
    (h : c.toWord &&& fmt.maskFields.toWord = (blank o).toWord) : c.op = o.byte ∧ c.unusedZero fmt = true := by
  rw [toWord_and] at h
  have h := toWord_injective h
  cases fmt <;> simp (disch := decide) only [Format.maskFields, blank, and_eq_self, mk.injEq] at h
  case b =>
    have hw2 : c.w2.extractLsb' 16 16 = 0 := upperHalf_eq_zero (by tauto)
    simpa [unusedZero, noMode, noDescriptor, h] using hw2
  all_goals simp [unusedZero, noMode, noDescriptor, h]

theorem CmdFields.unusedZero_of_row {w : Command} {o : Opcode} (h : w &&& o.tableMask = o.tableMatch) :
    (ofWord w).op = o.byte ∧ (ofWord w).unusedZero o.format = true :=
  unusedZero_of_mask (by rwa [toWord_ofWord, ← o.tableMask_eq, ← o.tableMatch_eq])

/-- In a row of the table, the operands decide. -/
theorem decode_of_row {w : Command} {o : Opcode} (h : w &&& o.tableMask = o.tableMatch) :
    decode w = (CmdFields.ofWord w).operands o := by
  obtain ⟨hop, hzero⟩ := CmdFields.unusedZero_of_row h
  rw [decode, CmdFields.decode, hop, Opcode.ofByte?_byte]
  exact if_pos hzero

theorem encode_in_row (i : Instr) : encode i &&& i.opcode.tableMask = i.opcode.tableMatch := by
  cases i with
  | rdfield f => exact Laws.TableMask.rdfield f
  | wrfield f v => exact Laws.TableMask.wrfield f v
  | init m w => exact Laws.TableMask.init m w
  | setmode m => exact Laws.TableMask.setmode m
  | swreset => exact Laws.TableMask.swreset
  | pollrdy => exact Laws.TableMask.pollrdy
  | rdresult w => exact Laws.TableMask.rdresult w
  | rdeco2 w => exact Laws.TableMask.rdeco2 w
  | rdetvoc w => exact Laws.TableMask.rdetvoc w
  | setcal hum temp => exact Laws.TableMask.setcal hum temp
  | getbase => exact Laws.TableMask.getbase
  | setbase b => exact Laws.TableMask.setbase b
  | decodeerr e => exact Laws.TableMask.decodeerr e
  | dumpstatus => exact Laws.TableMask.dumpstatus

/-! ### Each operand: what is read is what was laid in (R94 to R99) -/

theorem Width.ofCode?_eq_some_iff {b : BitVec 2} {w : Width} : Width.ofCode? b = some w ↔ w.code = b := by
  revert b
  cases w <;> decide

theorem Width.ofCode?_eq_none_iff {b : BitVec 2} : Width.ofCode? b = none ↔ b = 3 := by
  revert b
  decide

/-- R97. -/
theorem CmdFields.modeArgs_eq_iff {c : CmdFields} {m : ModeArgs} : c.modeArgs = m ↔ c.withMode m = c := by
  cases c
  cases m
  simp [modeArgs, withMode, beq_one_eq_iff]
  tauto

/-- R98. -/
theorem CmdFields.waitArg_eq_ok_iff {c : CmdFields} {w : WaitArg} :
    c.waitArg = .ok w ↔ ({ c with b1 := 0, b0 := 0, w2 := 0 } : CmdFields).withWait w = c := by
  cases c with | mk _ _ _ _ _ _ _ _ _ b1 b0 _ w2 _ =>
  obtain rfl | rfl := b1.eq_zero_or_eq_one <;> obtain rfl | rfl := b0.eq_zero_or_eq_one <;> cases w <;>
    simp [waitArg, withWait, checked_eq_ok_iff] <;> tauto

/-- R99. -/
theorem optionalOperand_eq_ok_iff {p : BitVec 1} {w : Word} {q : Option Word} :
    optionalOperand p w = .ok q ↔ BitVec.ofBool q.isSome = p ∧ q.getD 0 = w := by
  obtain rfl | rfl := p.eq_zero_or_eq_one <;> cases q <;> simp [optionalOperand, checked_eq_ok_iff] <;> tauto

theorem CmdFields.descriptor_withDescriptor (c : CmdFields) {f : RegisterField} (h : f.wf = true) :
    (c.withDescriptor f).descriptor = .ok f := by
  obtain ⟨addr, width, mask, signed, supplied⟩ := f
  have hw : Width.ofCode? width.code = some width := Width.ofCode?_eq_some_iff.mpr rfl
  cases supplied <;> simp [descriptor, withDescriptor, hw, h, beq_one_ofBool]

/-- R94, R95. -/
theorem CmdFields.descriptor_eq_ok_iff {c : CmdFields} {f : RegisterField} :
    c.descriptor = .ok f ↔ c.withDescriptor f = c ∧ f.wf = true := by
  refine ⟨fun h => ?_, fun ⟨hc, hf⟩ => hc ▸ c.descriptor_withDescriptor hf⟩
  unfold descriptor at h
  cases hw : Width.ofCode? c.wcode with
  | none => simp [hw] at h
  | some width =>
    simp only [hw, refused_eq_ok_iff, checked_eq_ok_iff] at h
    obtain ⟨ho, hf, h⟩ := h
    cases h
    refine ⟨?_, hf⟩
    rw [Width.ofCode?_eq_some_iff] at hw
    cases c with | mk op a8 wcode sgn osup offset =>
    obtain rfl | rfl := osup.eq_zero_or_eq_one <;> simp_all [withDescriptor, ofBool_beq_one]

/-! ### Decode after encode -/

/-- The operands of a well-formed command are read back from its fields. -/
theorem Instr.operands_fields {i : Instr} (h : i.wf = true) : i.fields.operands i.opcode = .ok i := by
  have waits (c : CmdFields) (h1 : c.b1 = 0) (h0 : c.b0 = 0) (h2 : c.w2 = 0) (w : WaitArg) :
      (c.withWait w).waitArg = .ok w := by
    cases w <;> simp [CmdFields.waitArg, CmdFields.withWait, h1, h0, h2]
  cases i with
  | rdfield f => exact map_eq_ok_iff.mpr ⟨f, CmdFields.descriptor_withDescriptor _ h, rfl⟩
  | wrfield f v => exact map_eq_ok_iff.mpr ⟨f, CmdFields.descriptor_eq_ok_iff.mpr ⟨rfl, h⟩, rfl⟩
  | init m w =>
    have hm : (Instr.init m w).fields.modeArgs = m := CmdFields.modeArgs_eq_iff.mpr rfl
    have hw : ((Instr.init m w).fields.b1 == 1) = w := beq_one_ofBool w
    rw [Instr.opcode, CmdFields.operands, hm, hw]
  | setmode m => exact congrArg (Except.ok ∘ Instr.setmode) (CmdFields.modeArgs_eq_iff.mpr rfl)
  | rdresult w => exact map_eq_ok_iff.mpr ⟨w, waits _ rfl rfl rfl w, rfl⟩
  | rdeco2 w => exact map_eq_ok_iff.mpr ⟨w, waits _ rfl rfl rfl w, rfl⟩
  | rdetvoc w => exact map_eq_ok_iff.mpr ⟨w, waits _ rfl rfl rfl w, rfl⟩
  | setcal hum temp => cases hum <;> cases temp <;> rfl
  | setbase b => exact congrArg (Except.ok ∘ Instr.setbase) BitVec.extractLsb'_append_eq_right
  | swreset => rfl
  | pollrdy => rfl
  | getbase => rfl
  | decodeerr e => rfl
  | dumpstatus => rfl

theorem decode_encode {i : Instr} (h : i.wf = true) : decode (encode i) = .ok i := by
  rw [decode_of_row (encode_in_row i), encode, CmdFields.ofWord_toWord, i.operands_fields h]

/-! ### Encode after decode -/

/-- R92: the fields that the format of an opcode uses, taken from `c`, with its byte and every other bit 0. -/
def CmdFields.used (c : CmdFields) (o : Opcode) : CmdFields :=
  match o.format with
  | .f =>
    { blank o with
      a8 := c.a8, wcode := c.wcode, sgn := c.sgn, osup := c.osup, offset := c.offset, w1 := c.w1 }
  | .fw =>
    { blank o with
      a8 := c.a8, wcode := c.wcode, sgn := c.sgn, osup := c.osup, offset := c.offset, w1 := c.w1, w2 := c.w2 }
  | .m => { blank o with mode := c.mode, drdy := c.drdy, thr := c.thr }
  | .mi => { blank o with mode := c.mode, drdy := c.drdy, thr := c.thr, b1 := c.b1 }
  | .r => { blank o with b1 := c.b1, b0 := c.b0, w2 := c.w2 }
  | .c => { blank o with b1 := c.b1, b0 := c.b0, w2 := c.w2, w3 := c.w3 }
  | .b => { blank o with w2 := (0 : Half) ++ c.w2.extractLsb' 0 16 }
  | .e => { blank o with a8 := c.a8 }
  | .z => blank o

/-- R104: a command with no unused bit set is made of the fields its format uses. -/
theorem CmdFields.used_eq_self {c : CmdFields} {o : Opcode} (hop : c.op = o.byte)
    (hzero : c.unusedZero o.format = true) : c.used o = c := by
  have hw2 : c.w2.extractLsb' 16 16 ++ c.w2.extractLsb' 0 16 = c.w2 := BitVec.extractLsb'_append_extractLsb'
  cases c
  unfold used
  cases hfmt : o.format <;> simp_all [unusedZero, noDescriptor, noMode, blank]

/-- Where no unused bit is set, the operands read account for every field. -/
theorem CmdFields.fields_of_operands {c : CmdFields} {o : Opcode} {i : Instr} (hc : c.used o = c)
    (h : c.operands o = .ok i) : i.fields = c ∧ i.wf = true := by
  have described {f : RegisterField} (hf : c.descriptor = .ok f) :
      (c.used o).withDescriptor f = c ∧ f.wf = true := hc.symm ▸ descriptor_eq_ok_iff.mp hf
  have waits {w : WaitArg} (hw : c.waitArg = .ok w) :
      ({ c.used o with b1 := 0, b0 := 0, w2 := 0 } : CmdFields).withWait w = c := hc.symm ▸ waitArg_eq_ok_iff.mp hw
  cases o
  case rdfield =>
    obtain ⟨f, hf, rfl⟩ := map_eq_ok_iff.mp h
    exact described hf
  case wrfield =>
    obtain ⟨f, hf, rfl⟩ := map_eq_ok_iff.mp h
    exact described hf
  case init =>
    cases h
    refine ⟨Eq.trans ?_ hc, rfl⟩
    simp [Instr.fields, Instr.opcode, used, Opcode.format, withMode, modeArgs, ofBool_beq_one]
  case setmode =>
    cases h
    refine ⟨Eq.trans ?_ hc, rfl⟩
    simp [Instr.fields, Instr.opcode, used, Opcode.format, withMode, modeArgs, ofBool_beq_one]
  case rdresult =>
    obtain ⟨w, hw, rfl⟩ := map_eq_ok_iff.mp h
    exact ⟨waits hw, rfl⟩
  case rdeco2 =>
    obtain ⟨w, hw, rfl⟩ := map_eq_ok_iff.mp h
    exact ⟨waits hw, rfl⟩
  case rdetvoc =>
    obtain ⟨w, hw, rfl⟩ := map_eq_ok_iff.mp h
    exact ⟨waits hw, rfl⟩
  case setcal =>
    rw [operands] at h
    split at h
    case h_1 hum temp hh ht =>
      obtain ⟨hb1, hw2⟩ := optionalOperand_eq_ok_iff.mp hh
      obtain ⟨hb0, hw3⟩ := optionalOperand_eq_ok_iff.mp ht
      cases h
      refine ⟨Eq.trans ?_ hc, rfl⟩
      simp only [Instr.fields, Instr.opcode, used, Opcode.format, hb1, hw2, hb0, hw3]
    all_goals cases h
  all_goals
    cases h
    exact ⟨hc, rfl⟩

theorem encode_of_decode {w : Command} {i : Instr} (h : decode w = .ok i) : encode i = w ∧ i.wf = true := by
  rw [decode, CmdFields.decode] at h
  split at h
  case h_1 => cases h
  case h_2 o ho =>
    obtain ⟨hzero, h⟩ := checked_eq_ok_iff.mp h
    have hused := CmdFields.used_eq_self (Opcode.byte_of_ofByte? ho).symm hzero
    obtain ⟨hf, hwf⟩ := CmdFields.fields_of_operands hused h
    exact ⟨by rw [encode, hf, CmdFields.toWord_ofWord], hwf⟩

theorem row_of_decode {w : Command} {i : Instr} (h : decode w = .ok i) :
    w &&& i.opcode.tableMask = i.opcode.tableMatch := by
  obtain ⟨rfl, -⟩ := encode_of_decode h
  exact encode_in_row i

theorem op_of_decode {w : Command} {i : Instr} (h : decode w = .ok i) : w.extractLsb' 120 8 = i.opcode.byte :=
  (CmdFields.unusedZero_of_row (row_of_decode h)).1

/-! ### Well-formed descriptors (R95) -/

theorem RegisterField.wf_iff (f : RegisterField) : f.wf = true ↔
    f.mask ≠ 0 ∧ f.mask.toNat < 2 ^ f.width.bits ∧ ∀ o, f.supplied = some o → o.toNat = ctz f.mask := by
  obtain ⟨addr, width, mask, signed, supplied⟩ := f
  cases supplied <;> simp [wf, maskNonzero, maskFits, offsetAgrees, and_assoc]

theorem Width.bits_eq (w : Width) : w.bits = 8 * 2 ^ w.code.toNat := by cases w <;> rfl

/-- R95: the decoder reads a descriptor exactly where none of (a) to (e) is broken. -/
theorem descriptor_ok_iff (w : Command) :
    (∃ f, (CmdFields.ofWord w).descriptor = .ok f) ↔ ¬Machine.illFormedDescriptor w := by
  have hosup : w.getLsbD 108 = ((CmdFields.ofWord w).osup == 1#1) := getLsbD_eq_field w 108
  rw [Machine.illFormedDescriptor, hosup]
  change _ ↔ ¬((CmdFields.ofWord w).wcode = 3 ∨ (CmdFields.ofWord w).w1 = 0 ∨
    2 ^ (8 * 2 ^ (CmdFields.ofWord w).wcode.toNat) ≤ (CmdFields.ofWord w).w1.toNat ∨
    (_ ∧ (CmdFields.ofWord w).offset.toNat ≠ ctz (CmdFields.ofWord w).w1) ∨ (_ ∧ (CmdFields.ofWord w).offset ≠ 0))
  generalize CmdFields.ofWord w = c
  unfold CmdFields.descriptor
  cases hw : Width.ofCode? c.wcode with
  | none => simp [Width.ofCode?_eq_none_iff.mp hw]
  | some width =>
    rw [Width.ofCode?_eq_some_iff] at hw
    have hn : width.code ≠ 3 := by cases width <;> decide
    simp only [refused_eq_ok_iff, checked_eq_ok_iff, RegisterField.wf_iff, ← hw, ← Width.bits_eq]
    obtain ho | ho := c.osup.eq_zero_or_eq_one <;> simp [ho] <;> tauto

theorem descriptor_of_decode {w : Command} {i : Instr} (h : decode w = .ok i)
    (hi : i.opcode = .rdfield ∨ i.opcode = .wrfield) : ∃ f, (CmdFields.ofWord w).descriptor = .ok f := by
  obtain ⟨rfl, hwf⟩ := encode_of_decode h
  rw [encode, CmdFields.ofWord_toWord]
  cases i with
  | rdfield f => exact ⟨f, CmdFields.descriptor_eq_ok_iff.mpr ⟨rfl, hwf⟩⟩
  | wrfield f v => exact ⟨f, CmdFields.descriptor_eq_ok_iff.mpr ⟨rfl, hwf⟩⟩
  | _ => simp [Instr.opcode] at hi

end Sys2Proof

namespace Sys2Proof.Machine

/-- Settles O2. -/
theorem decodeOfEncode : Obligations.DecodeOfEncode := fun _ => decode_encode

/-- Settles O3. -/
theorem encodeOfDecode : Obligations.EncodeOfDecode := fun _ _ => encode_of_decode

/-- Settles O1: each word is the word of its command, which `decode_encode` reads back. -/
theorem workedEncodingsDecode : Obligations.WorkedEncodingsDecode := by
  have reads {w : Command} {i : Instr} (h : encode i = w) (hwf : i.wf = true) : decode w = .ok i :=
    h ▸ decode_encode hwf
  refine ⟨?_, ?_, ?_, ?_, ?_, ?_, ?_, ?_, ?_, ?_, ?_, ?_, ?_, ?_, ?_⟩
  all_goals exact reads (by decide) (by decide)

/-! ### What the decoder refuses (R95, R104, R105) -/

/-- R267: at IDLE a word that is no command's is answered IllegalCommand, and nothing else happens. -/
theorem step_refuses {s : State} {w : Command} {rest : List HostInput} (hp : s.pc = .idle)
    (hi : s.inputs = .command w :: rest) (h : ∀ i, decode w ≠ .ok i) :
    step s = .next { s with
      inputs := rest, responses := s.responses ++ [bare .illegalCommand (w.extractLsb' 120 8)] } := by
  cases hw : decode w with
  | ok i => exact absurd hw (h i)
  | error e =>
    rw [step_illegal hp hi hw]
    cases s
    cases hp
    rfl

/-- The word of a command keeps the conditional must-be-zero bits (R95 (e), R98, R99). -/
theorem conditionalBitsSet_encode (i : Instr) : conditionalBitsSet i.opcode (encode i) = false := by
  have hc : CmdFields.ofWord (encode i) = i.fields := CmdFields.ofWord_toWord i.fields
  have hosup : (encode i).getLsbD 108 = (i.fields.osup == 1#1) := hc ▸ getLsbD_eq_field _ 108
  have hb1 : (encode i).getLsbD 97 = (i.fields.b1 == 1#1) := hc ▸ getLsbD_eq_field _ 97
  have hb0 : (encode i).getLsbD 96 = (i.fields.b0 == 1#1) := hc ▸ getLsbD_eq_field _ 96
  have hoffset : (encode i).extractLsb' 103 5 = i.fields.offset := congrArg CmdFields.offset hc
  have hw2 : (encode i).extractLsb' 32 32 = i.fields.w2 := congrArg CmdFields.w2 hc
  have hw3 : (encode i).extractLsb' 0 32 = i.fields.w3 := congrArg CmdFields.w3 hc
  unfold conditionalBitsSet
  rw [hosup, hb1, hb0, hoffset, hw2, hw3]
  cases i with
  | rdfield f => cases hf : f.supplied <;> simp [Instr.opcode, Instr.fields, CmdFields.withDescriptor, hf]
  | wrfield f v => cases hf : f.supplied <;> simp [Instr.opcode, Instr.fields, CmdFields.withDescriptor, hf]
  | rdresult w => cases w <;> rfl
  | rdeco2 w => cases w <;> rfl
  | rdetvoc w => cases w <;> rfl
  | setcal hum temp => cases hum <;> cases temp <;> rfl
  | _ => rfl

/-- Settles O5: the `op` of a command's word is in the map. -/
theorem undefinedOpcodesRefused : Obligations.UndefinedOpcodesRefused := by
  intro s w rest hp hi hop
  refine step_refuses hp hi fun i h => hop ?_
  rw [op_of_decode h]
  cases i.opcode <;> decide

/-- Settles O6: a word that decodes lies in its row of the table, and keeps the conditional bits. -/
theorem reservedBitsRefused : Obligations.ReservedBitsRefused := by
  intro s w rest o hp hi hop hbits
  rw [← hop]
  refine step_refuses hp hi fun i h => ?_
  obtain rfl : i.opcode = o := Opcode.byte_injective ((op_of_decode h).symm.trans hop)
  obtain ⟨henc, -⟩ := encode_of_decode h
  have hcond : conditionalBitsSet i.opcode w = false := henc ▸ conditionalBitsSet_encode i
  obtain hrow | hset := hbits
  · exact hrow (row_of_decode h)
  · exact Bool.false_ne_true (hcond.symm.trans hset)

/-- Settles O7: both ways by `descriptor_ok_iff`. -/
theorem illFormedDescriptorsRefused : Obligations.IllFormedDescriptorsRefused := by
  refine ⟨fun s w rest hp hi hop hill => step_refuses hp hi fun i h => ?_, fun w hw => ?_⟩
  · rw [op_of_decode h] at hop
    have hfield : i.opcode = .rdfield ∨ i.opcode = .wrfield :=
      hop.imp (fun h => Opcode.byte_injective h) (fun h => Opcode.byte_injective h)
    exact (descriptor_ok_iff w).mp (descriptor_of_decode h hfield) hill
  · obtain ⟨f, hf⟩ := (descriptor_ok_iff w).mpr hw
    exact ⟨fun hrow => ⟨f, (decode_of_row hrow).trans (map_eq_ok_iff.mpr ⟨f, hf, rfl⟩)⟩,
      fun hrow => ⟨f, (decode_of_row hrow).trans (map_eq_ok_iff.mpr ⟨f, hf, rfl⟩)⟩⟩

end Sys2Proof.Machine
end

section
/-! PROOF. The response of a command: its status is one of its row (R274), and it carries nothing that its status does
not (R262); where the response word carries its fields (O15, O23). -/

namespace Sys2Proof

/-- R274: the statuses a command of the opcode can return (`allowedStatuses_eq`). -/
def Opcode.statuses : Opcode → List Machine.Status
  | .rdfield => [.ok, .transportError]
  | .wrfield => [.ok, .invalidFieldValue, .transportError]
  | .init =>
    [.ok, .invalidMeasurementMode, .unexpectedHardwareId, .modeTransitionFailed, .transportError, .timeout,
      .readFailed]
  | .setmode => [.ok, .notConstructed, .invalidMeasurementMode, .transportError]
  | .swreset => [.ok, .transportError]
  | .rdresult | .rdeco2 | .rdetvoc => [.ok, .notConstructed, .noData, .timeout, .readFailed, .transportError]
  | .setcal => [.ok, .notConstructed, .noData, .invalidFieldValue, .transportError]
  | .pollrdy | .getbase | .setbase | .dumpstatus => [.ok, .notConstructed, .transportError]
  | .decodeerr => [.ok]

/-- Whether a status is among them, as a test that computes. -/
abbrev Opcode.allows (o : Opcode) (st : Machine.Status) : Bool := o.statuses.contains st

theorem Opcode.ok_mem_statuses (o : Opcode) : .ok ∈ o.statuses := by cases o <;> decide

end Sys2Proof

namespace Sys2Proof.Machine

/-- The statuses of a command depend on its opcode alone. -/
theorem allowedStatuses_eq (i : Instr) : allowedStatuses i = i.opcode.statuses := by cases i <;> rfl

/-- R101, R262, R274: what the response of a command of opcode `o` can be. -/
structure Response.Fits (q : Response) (o : Opcode) : Prop where
  op : q.op = o.byte
  status : q.status ∈ o.statuses
  info : q.status ∈ [Status.ok, .noData, .timeout] → q.info = 0
  payload : q.status ≠ .ok → q.r2 = 0 ∧ (q.status ≠ .invalidFieldValue → q.r1 = 0)

theorem okResponse_fits (o : Opcode) (r1 r2 : Word) : (okResponse o.byte r1 r2).Fits o where
  op := rfl
  status := o.ok_mem_statuses
  info _ := rfl
  payload h := absurd rfl h

theorem Failure.info_eq_zero {e : Failure} (h : e.status ∈ [Status.ok, .noData, .timeout]) : e.info = 0 := by
  cases e <;> simp_all [Failure.status, Failure.info]

theorem Failure.r1_eq_zero {e : Failure} (h : e.status ≠ .invalidFieldValue) : e.r1 = 0 := by
  cases e <;> simp_all [Failure.status, Failure.r1]

theorem Failure.response_fits {o : Opcode} {e : Failure} (h : e.status ∈ o.statuses) : (e.response o.byte).Fits o where
  op := rfl
  status := h
  info := Failure.info_eq_zero
  payload _ := ⟨rfl, Failure.r1_eq_zero⟩

/-- If a command of opcode `o` has answered in `t` since the responses were `rs`, the response fits. -/
def State.Answers (o : Opcode) (rs : List Response) (t : State) : Prop :=
  ∀ q, t.responses = rs ++ [q] → q.Fits o

/-! ### The ends of a command, and the port primitives -/

section
variable {o : Opcode} {rs : List Response} {s : State} (hs : s.responses = rs)
include hs

/-- Nothing has been answered yet. -/
theorem State.Answers.silent : s.Answers o rs := fun q hq => by simp [hs] at hq

theorem State.Answers.respond {q : Response} (hq : q.Fits o) : (s.respond q).Answers o rs := fun q' h => by
  rw [State.respond_responses, hs, List.append_cancel_left_eq, List.singleton_inj] at h
  exact h ▸ hq

theorem State.Answers.returnOk (r1 r2 : Word) : (s.returnOk o r1 r2).Answers o rs :=
  .respond hs (okResponse_fits o r1 r2)

theorem State.Answers.raise {e : Failure} (he : o.allows e.status) : (s.raise o e).Answers o rs :=
  .respond hs (Failure.response_fits (List.contains_iff_mem.mp he))

theorem State.withHandle_answers {k : State} (he : o.allows .notConstructed) (hk : k.Answers o rs) :
    (s.withHandle o k).Answers o rs :=
  iteInduction (fun _ => hk) fun _ => .raise hs he

theorem State.memRead_answers {a : Byte} {w : Width} {k : Word → State → State} (he : o.allows .transportError)
    (ok : ∀ v t, t.responses = rs → (k v t).Answers o rs) : (s.memRead o a w k).Answers o rs :=
  iteInduction (fun _ => ok _ _ hs) fun _ => .raise hs he

theorem State.memWrite_answers {a : Byte} {w : Width} {v : Word} {k : State → State} (he : o.allows .transportError)
    (ok : ∀ t, t.responses = rs → (k t).Answers o rs) : (s.memWrite o a w v k).Answers o rs :=
  iteInduction (fun _ => ok _ hs) fun _ => .raise hs he

theorem State.memWriteBlock_answers {a : Byte} {bs : List Byte} {k : State → State} (he : o.allows .transportError)
    (ok : ∀ t, t.responses = rs → (k t).Answers o rs) : (s.memWriteBlock o a bs k).Answers o rs :=
  iteInduction (fun _ => ok _ hs) fun _ => .raise hs he

theorem State.readStatus_answers {k : Byte → State → State} (he : o.allows .transportError)
    (ok : ∀ st t, t.responses = rs → (k st t).Answers o rs) : (s.readStatus o k).Answers o rs :=
  State.memRead_answers hs he fun _ _ ht => ok _ _ ht

theorem State.writeMode_answers {m : ModeArgs} {k : State → State} (he : o.allows .transportError)
    (ok : ∀ t, t.responses = rs → (k t).Answers o rs) : (s.writeMode o m k).Answers o rs :=
  State.memWrite_answers hs he fun _ ht => ok _ ht

theorem State.fetchBlock_answers {k : ResultBlock → State → State} (he : o.allows .transportError)
    (hr : o.allows .readFailed) (ok : ∀ b t, t.responses = rs → (k b t).Answers o rs) :
    (s.fetchBlock o k).Answers o rs := by
  unfold State.fetchBlock
  cases blockOutcome s.nextAnswer 8 with
  | fail => exact .raise hs he
  | null => exact .raise hs hr
  | bytes bs =>
    dsimp only
    cases blockOf? bs with
    | none => exact .raise hs hr
    | some b => exact ok b _ hs

theorem deadlinePassed_answers {u : ResultUser} : (deadlinePassed u s).Answers (userOpcode u) rs := by
  cases u <;> exact .raise hs rfl

theorem deliver_answers {u : ResultUser} {b : ResultBlock} : (deliver u b s).Answers (userOpcode u) rs := by
  cases u <;> exact .returnOk hs _ _

end

/-! ### Acceptances and micro-steps -/

/-- The four commands that fetch can report a failed transaction and a short block. -/
theorem userOpcode_allows (u : ResultUser) :
    (userOpcode u).allows .transportError ∧ (userOpcode u).allows .readFailed := by
  cases u <;> decide

/-- Every micro-step of a command that answers gives a response that fits. -/
theorem microStep_answers {s : State} {o : Opcode} {rs : List Response} (ho : s.pc.opcode? = some o)
    (hs : s.responses = rs) : (microStep s).Answers o rs := by
  unfold microStep
  cases hpc : s.pc <;> rw [hpc] at ho <;> cases ho
  case rfRead f => exact State.memRead_answers hs rfl fun _ _ ht => .returnOk ht _ _
  case wfProbe f v => exact State.memRead_answers hs rfl fun _ _ ht => .silent ht
  case wfWrite f v => exact State.memWrite_answers hs rfl fun _ ht => .returnOk ht _ _
  case inHwid m w =>
    exact State.memRead_answers hs rfl fun _ _ ht => iteInduction (fun _ => .silent ht) fun _ => .raise ht rfl
  case inStatus m w =>
    exact State.readStatus_answers hs rfl fun _ _ ht => iteInduction (fun _ => .silent ht) fun _ => .silent ht
  case inAppstart m w => exact State.memWriteBlock_answers hs rfl fun _ ht => .silent ht
  case inSettle m w => exact .silent hs
  case inRecheck m w =>
    exact State.readStatus_answers hs rfl fun _ _ ht => iteInduction (fun _ => .raise ht rfl) fun _ => .silent ht
  case inSetmode m w =>
    exact State.writeMode_answers (s := s.invalidateCache) hs rfl fun _ ht =>
      iteInduction (fun _ => .silent ht) fun _ => .returnOk ht _ _
  case smWrite m => exact State.writeMode_answers hs rfl fun _ ht => .returnOk ht _ _
  case srWrite => exact State.memWrite_answers hs rfl fun _ ht => .returnOk ht _ _
  case prRead => exact State.readStatus_answers hs rfl fun _ _ ht => .returnOk ht _ _
  case rrPoll u t0 T =>
    obtain ⟨he, -⟩ := userOpcode_allows u
    exact State.readStatus_answers hs he fun _ _ ht =>
      iteInduction (fun _ => .silent ht) fun _ =>
        iteInduction (fun _ => deadlinePassed_answers ht) fun _ => .silent ht
  case rrSleep u t0 T => exact .silent hs
  case rrFetch u =>
    obtain ⟨he, hr⟩ := userOpcode_allows u
    exact State.fetchBlock_answers hs he hr fun _ _ ht => deliver_answers ht
  case scWrite e => exact State.memWrite_answers hs rfl fun _ ht => .returnOk ht _ _
  case gbRead => exact State.memRead_answers hs rfl fun _ _ ht => .returnOk ht _ _
  case sbWrite b => exact State.memWrite_answers hs rfl fun _ ht => .returnOk ht _ _
  case dsStatus => exact State.readStatus_answers hs rfl fun _ _ ht => .silent ht
  case dsBase st => exact State.memRead_answers hs rfl fun _ _ ht => .silent ht
  case dsHwid st b => exact State.memRead_answers hs rfl fun _ _ ht => .returnOk ht _ _

theorem startResult_answers {u : ResultUser} (hn : (userOpcode u).allows .notConstructed)
    (hd : (userOpcode u).allows .noData) (w : WaitArg) (s : State) :
    (startResult u w s).Answers (userOpcode u) s.responses := by
  refine State.withHandle_answers rfl hn (iteInduction (fun _ => ?_) fun _ => .raise rfl hd)
  cases w <;> exact .silent rfl

/-- A command that answers at its acceptance gives a response that fits. -/
theorem accept_answers (i : Instr) (s : State) : (s.accept i).Answers i.opcode s.responses := by
  cases i with
  | rdfield f => exact .silent rfl
  | wrfield f v => exact iteInduction (fun _ => .silent rfl) fun _ => .raise rfl rfl
  | init m w => exact iteInduction (fun _ => .raise rfl rfl) fun _ => .silent rfl
  | setmode m =>
    exact State.withHandle_answers rfl rfl (iteInduction (fun _ => .raise rfl rfl) fun _ => .silent rfl)
  | swreset => exact .silent rfl
  | pollrdy => exact State.withHandle_answers rfl rfl (.silent rfl)
  | rdresult w => exact startResult_answers (u := .result) rfl rfl w s
  | rdeco2 w => exact startResult_answers (u := .eco2) rfl rfl w s
  | rdetvoc w => exact startResult_answers (u := .etvoc) rfl rfl w s
  | setcal hum temp =>
    refine State.withHandle_answers rfl rfl (iteInduction (fun _ => ?_) fun _ => .raise rfl rfl)
    exact iteInduction (fun _ => .raise rfl rfl) fun _ => .silent rfl
  | getbase => exact State.withHandle_answers rfl rfl (.silent rfl)
  | setbase b => exact State.withHandle_answers rfl rfl (.silent rfl)
  | decodeerr e => exact .returnOk rfl _ _
  | dumpstatus => exact State.withHandle_answers rfl rfl (.silent rfl)

/-- Settles O15: a command answers once (`complete_answeredSince`), and the acceptance or micro-step that answers gives
a response that fits. -/
theorem everyCommandAnswersOnce : Obligations.EveryCommandAnswersOnce := by
  intro i s
  obtain ⟨hsince, hanswers⟩ : (s.accept i).complete.AnsweredSince s.responses ∧
      (s.accept i).complete.Answers i.opcode s.responses :=
    exec_keeps (P := fun u => u.AnsweredSince s.responses ∧ u.Answers i.opcode s.responses) (exec_eq_accept i s)
      ⟨accept_answeredSince i s, accept_answers i s⟩ fun u hp ho ⟨hu, _⟩ =>
        ⟨microStep_answeredSince hu, microStep_answers ho (hu.busy hp)⟩
  obtain ⟨r, hr⟩ := hsince.idle (complete_pc _)
  obtain ⟨hop, hstatus, hinfo, hpayload⟩ := hanswers r hr
  exact ⟨_, r, exec_eq_accept i s, complete_pc _, hr, hop, allowedStatuses_eq i ▸ hstatus, hinfo, hpayload⟩

/-- Settles O23. -/
theorem responseWordLayout : Obligations.ResponseWordLayout := by
  refine ⟨by decide, fun r => ?_⟩
  unfold Response.word
  refine ⟨?_, ?_, ?_, ?_, ?_⟩ <;>
    · simp (disch := decide) only [BitVec.extractLsb'_append_eq_of_le, BitVec.extractLsb'_append_eq_of_add_le]
      simp

end Sys2Proof.Machine
end

section
/-! PROOF. The codec's arithmetic: a value that fits its field, the field in the register, the merge (O25, O26). -/

namespace Sys2Proof

/-! ### A value that fits a mask, at the mask's offset (R132) -/

/-- A value without a bit outside a mask is its own part within the mask. -/
theorem and_eq_self_of_and_not_eq_zero {n : Nat} {v m : BitVec n} (h : v &&& ~~~m = 0) : v &&& m = v := by
  calc v &&& m = v &&& m ||| v &&& ~~~m := by rw [h, BitVec.ofNat_eq_ofNat, BitVec.or_zero]
    _ = v := by rw [← BitVec.and_or_distrib_left, BitVec.or_not_self, BitVec.and_allOnes]

section
variable {m v : Word} {k : Nat} (h : v &&& ~~~(m >>> k) = 0)
include h

/-- R134: the shift to the field's place neither leaves the mask nor loses a bit. -/
theorem toNat_mul_le_of_fits : v.toNat * 2 ^ k ≤ m.toNat := by
  have hv : v.toNat ≤ m.toNat / 2 ^ k := by
    rw [← and_eq_self_of_and_not_eq_zero h, BitVec.toNat_and, BitVec.toNat_ushiftRight, Nat.shiftRight_eq_div_pow]
    exact Nat.and_le_right
  exact (Nat.mul_le_mul_right _ hv).trans (Nat.div_mul_le_self _ _)

theorem shiftLeft_ushiftRight_of_fits : v <<< k >>> k = v := by
  have hlt : v.toNat * 2 ^ k < 2 ^ 32 := (toNat_mul_le_of_fits h).trans_lt m.isLt
  apply BitVec.eq_of_toNat_eq
  rw [BitVec.toNat_ushiftRight, BitVec.toNat_shiftLeft, Nat.shiftLeft_eq, Nat.mod_eq_of_lt hlt,
    Nat.shiftRight_eq_div_pow, Nat.mul_div_cancel _ (Nat.two_pow_pos k)]

theorem shiftLeft_and_of_fits : v <<< k &&& m = v <<< k := by
  rw [← and_eq_self_of_and_not_eq_zero h, BitVec.shiftLeft_and_distrib, BitVec.shiftLeft_ushiftRight,
    BitVec.and_assoc, BitVec.and_comm (m &&& _) m, ← BitVec.and_assoc m m, BitVec.and_self]

end

end Sys2Proof

namespace Sys2Proof.Machine

/-- R94, R132: the fit check of a well-formed field, with the offset written out. -/
theorem fits_iff_of_wf {f : RegisterField} {v : Word} (hf : f.wf = true) :
    fits f v = true ↔ v &&& ~~~(f.mask >>> ctz f.mask) = 0 := by
  rw [fits, valmask, fieldOffset_of_wf hf, beq_iff_eq]

/-! ### The merge of a partial write (R133, R136) -/

theorem mask_and_siblingMask (f : RegisterField) : f.mask &&& siblingMask f = 0 := by
  rw [siblingMask, BitVec.and_comm f.width.ones, ← BitVec.and_assoc, BitVec.and_not_self]
  exact BitVec.zero_and

theorem mergeField_and_siblingMask (f : RegisterField) (cur v : Word) :
    mergeField f cur v &&& siblingMask f = cur &&& siblingMask f := by
  rw [mergeField, BitVec.and_or_distrib_right, BitVec.and_assoc, BitVec.and_self, BitVec.and_assoc,
    mask_and_siblingMask]
  simp

theorem mergeField_and_mask (f : RegisterField) (cur v : Word) :
    mergeField f cur v &&& f.mask = v <<< fieldOffset f &&& f.mask := by
  rw [mergeField, BitVec.and_or_distrib_right, BitVec.and_assoc, BitVec.and_comm (siblingMask f),
    mask_and_siblingMask, BitVec.and_assoc, BitVec.and_self]
  simp

/-- The field of the merged word is the value merged into it. -/
theorem field_mergeField {f : RegisterField} {v : Word} (hf : f.wf = true) (hv : fits f v = true) (cur : Word) :
    (mergeField f cur v &&& f.mask) >>> ctz f.mask = v := by
  rw [fits_iff_of_wf hf] at hv
  rw [mergeField_and_mask, fieldOffset_of_wf hf, shiftLeft_and_of_fits hv, shiftLeft_ushiftRight_of_fits hv]

/-- Settles O25: `mergeField_and_siblingMask` and `field_mergeField`. -/
theorem partialWriteKeepsSiblings : Obligations.PartialWriteKeepsSiblings := fun f cur v hf hv =>
  ⟨mergeField_and_siblingMask f cur v, field_mergeField hf ((fits_iff_of_wf hf).mpr hv) cur⟩

/-! ### The field of a word read (R94, R131) -/

theorem ctz_ones (w : Width) : ctz w.ones = 0 := by cases w <;> decide

theorem toNat_wordOf_lt (a : Answer) (w : Width) : (wordOf a w).toNat < 2 ^ w.bits := by
  cases w with
  | w8 => exact (toNat_wordOf_w8 a).trans_lt a.b0.isLt
  | w16 =>
    rw [toNat_wordOf_w16, Width.bits]
    omega
  | w32 => exact (wordOf a .w32).isLt

/-- A read brings no bit beyond the register's width (R51). -/
theorem wordOf_and_ones (a : Answer) (w : Width) : wordOf a w &&& w.ones = wordOf a w := by
  apply BitVec.eq_of_toNat_eq
  rw [BitVec.toNat_and, w.toNat_ones, Nat.and_two_pow_sub_one_of_lt_two_pow (toNat_wordOf_lt a w)]

/-- The full-width path of R131 is no exception: it too returns the field of the word read. -/
theorem fieldValue_wordOf {f : RegisterField} (hf : f.wf = true) (a : Answer) :
    fieldValue f (wordOf a f.width) = (wordOf a f.width &&& f.mask) >>> ctz f.mask := by
  unfold fieldValue
  split
  case isTrue hw =>
    have hmask : f.mask = f.width.ones := by simpa [fullWidth] using hw
    rw [hmask, wordOf_and_ones, ctz_ones, BitVec.ushiftRight_zero]
  case isFalse => rw [fieldOffset_of_wf hf]

theorem fieldValue_wordOf_and_not_valmask {f : RegisterField} (hf : f.wf = true) (a : Answer) :
    fieldValue f (wordOf a f.width) &&& ~~~(f.mask >>> ctz f.mask) = 0 := by
  rw [fieldValue_wordOf hf, BitVec.ushiftRight_and_distrib, BitVec.and_assoc, BitVec.and_not_self]
  exact BitVec.and_zero

/-- Settles O26: an unsigned read is the field's value, and a value that fits is at most its mask once shifted. -/
theorem fieldsStayInTheirMask : Obligations.FieldsStayInTheirMask := by
  intro f hf
  refine ⟨fun a hu => ?_, fun v hv => ⟨shiftLeft_and_of_fits hv, ?_⟩⟩
  · rw [readResult, if_neg (by simp [hu])]
    exact fieldValue_wordOf_and_not_valmask hf a
  · exact (toNat_mul_le_of_fits hv).trans_lt (f.mask_lt_of_wf hf)

end Sys2Proof.Machine
end

section
/-! PROOF. The runs of RDFIELD and WRFIELD (O29, O30, O31), what the one returns of what the other wrote (O32), and
the registers they leave alone (O33). -/

namespace Sys2Proof.Machine

/-! ### The two commands, as the micro-steps they are (R30) -/

/-- RDFIELD is its one read (R131). -/
theorem exec_rdfield (f : RegisterField) (s : State) : exec (.rdfield f) s = .next (rfRead f s) := by
  have hend : (rfRead f s).complete = rfRead f s :=
    State.memRead_rule (P := fun t => t.complete = t) (fun _ _ => complete_respond _ _) fun _ _ =>
      complete_respond _ _
  rw [exec_eq_accept, ← hend, ← complete_rfRead]
  rfl

/-- Both paths of WRFIELD end with the write. -/
theorem complete_goto_wfWrite (f : RegisterField) (new : Word) (s : State) :
    (s.goto (.wfWrite f new)).complete = wfWrite f new s := by
  rw [complete_wfWrite]
  exact State.memWrite_rule (P := fun t => t.complete = t) (fun _ _ => complete_respond _ _) fun _ =>
    complete_respond _ _

section
variable {f : RegisterField} {v : Word}

/-- R132: a value that does not fit is refused at once. -/
theorem exec_wrfield_misfit (hv : fits f v = false) (s : State) :
    exec (.wrfield f v) s = .next (s.raise .wrfield (.invalidFieldValue v)) := by
  rw [exec_eq_accept, State.accept, startWrfield, if_neg (by simp [hv]), State.raise_eq, complete_respond]

/-- R132: the full-width path is the write of the value. -/
theorem exec_wrfield_full (hv : fits f v = true) (hw : fullWidth f = true) (s : State) :
    exec (.wrfield f v) s = .next (wfWrite f v s) := by
  rw [exec_eq_accept, accept_wrfield hv, if_pos hw, complete_goto_wfWrite]

/-- R133: the partial path is the probe read, then the write of the merged word. -/
theorem exec_wrfield_partial (hv : fits f v = true) (hw : fullWidth f = false) (s : State) :
    exec (.wrfield f v) s =
      .next (s.memRead .wrfield f.addr f.width fun cur => wfWrite f (mergeField f cur v)) := by
  rw [exec_eq_accept, accept_wrfield hv, if_neg (by simp [hw]), complete_wfProbe, wfProbe]
  cases ha : s.nextAnswer.ok with
  | true => rw [State.memRead_ok ha, State.memRead_ok ha, complete_goto_wfWrite]
  | false => rw [State.memRead_fail ha, State.memRead_fail ha, State.raise_eq, complete_respond]

end

/-! ### What each transaction leads to (R131 to R133, R262) -/

theorem rfRead_ok {s : State} (h : s.nextAnswer.ok = true) (f : RegisterField) :
    rfRead f s = (s.event (.memRead f.addr f.width (some (wordOf s.nextAnswer f.width))) 0).respond
      (okWith 0x01 (readResult f (wordOf s.nextAnswer f.width)) 0) :=
  State.memRead_ok h _ _ _ _

theorem State.memRead_eq_readFailed {s : State} (h : s.nextAnswer.ok = false) (op : Opcode) (a : Byte) (w : Width)
    (k : Word → State → State) :
    s.memRead op a w k = (s.readFailed a w).respond (transportFailure op.byte false a) := by
  rw [State.memRead_fail h, State.raise_eq, transportError_response, State.readFailed]

theorem wfWrite_ok {s : State} (h : s.nextAnswer.ok = true) (f : RegisterField) (new : Word) :
    wfWrite f new s = (s.wrote f.addr f.width new).respond (okWith 0x02 0 0) :=
  State.memWrite_ok h _ _ _ _ _

theorem wfWrite_failed {s : State} (h : s.nextAnswer.ok = false) (f : RegisterField) (new : Word) :
    wfWrite f new s = (s.writeFailed f.addr f.width new).respond (transportFailure 0x02 true f.addr) := by
  rw [wfWrite, State.memWrite_fail h, State.raise_eq, transportError_response, State.writeFailed]
  rfl

/-! ### The results with the offset written out (R94) -/

theorem readResult_of_wf {f : RegisterField} (hf : f.wf = true) (raw : Word) :
    readResult f raw =
      if f.signed then sext32 (bitlen (f.mask >>> ctz f.mask)) (fieldValue f raw) else fieldValue f raw := by
  rw [readResult, fieldBits, valmask, fieldOffset_of_wf hf]

theorem fieldReadValue_eq {f : RegisterField} (hf : f.wf = true) (raw : Word) :
    fieldReadValue f raw = readResult f raw := by
  have hvalue : fieldValue f raw =
      if f.mask.toNat = 2 ^ f.width.bits - 1 then raw else (raw &&& f.mask) >>> ctz f.mask := by
    simp only [fieldValue, fullWidth_iff, fieldOffset_of_wf hf]
  rw [readResult_of_wf hf, fieldReadValue, ← hvalue, sext32]
  cases f.signed <;> simp

theorem mergeField_of_wf {f : RegisterField} (hf : f.wf = true) (cur v : Word) :
    mergeField f cur v = cur &&& (f.width.ones &&& ~~~f.mask) ||| v <<< ctz f.mask &&& f.mask := by
  rw [mergeField, siblingMask, fieldOffset_of_wf hf]

/-- R132: the fit check as a subtraction over the 32 bits of the operand. -/
theorem fits_iff_and_sub {f : RegisterField} {v : Word} (hf : f.wf = true) :
    fits f v = true ↔ v &&& (0xFFFFFFFF - f.mask >>> ctz f.mask) = 0 := by
  have hnot (x : Word) : 0xFFFFFFFF - x = ~~~x := BitVec.allOnes_sub_eq_not x
  rw [fits_iff_of_wf hf, hnot]

/-- Settles O29: `rfRead_ok` and `State.memRead_eq_readFailed`. -/
theorem rdfieldReadsField : Obligations.RdfieldReadsField := by
  intro f s hf
  rw [exec_rdfield]
  refine ⟨fun hok => ?_, fun hfail => ?_⟩
  · rw [rfRead_ok hok, fieldReadValue_eq hf]
  · rw [rfRead, State.memRead_eq_readFailed hfail]
    rfl

/-- Settles O30: `exec_wrfield_misfit`, and the one write of `exec_wrfield_full`. -/
theorem wrfieldChecksAndWritesWhole : Obligations.WrfieldChecksAndWritesWhole := by
  intro f v s hf
  refine ⟨fun hv => ?_, fun hv hmask => ?_⟩
  · rw [exec_wrfield_misfit (Bool.eq_false_iff.mpr (mt (fits_iff_and_sub hf).mp hv))]
    rfl
  · rw [exec_wrfield_full ((fits_iff_and_sub hf).mpr hv) ((fullWidth_iff f).mpr hmask)]
    exact ⟨fun hok => by rw [wfWrite_ok hok], fun hfail => by rw [wfWrite_failed hfail]⟩

/-- Settles O31: the probe read and the write of `exec_wrfield_partial`. -/
theorem wrfieldReadModifyWrite : Obligations.WrfieldReadModifyWrite := by
  intro f v s hf hv hmask cur new probed
  have hw : fullWidth f = false := Bool.eq_false_iff.mpr (mt (fullWidth_iff f).mp hmask)
  have hnew : mergeField f cur v = new := mergeField_of_wf hf cur v
  rw [exec_wrfield_partial (fits_of_wf hf hv) hw]
  refine ⟨fun hfail => ?_, fun hok hfail => ?_, fun hok hok' => ?_⟩
  · rw [State.memRead_eq_readFailed hfail]
    rfl
  · rw [State.memRead_ok hok, hnew, wfWrite_failed hfail]
  · rw [State.memRead_ok hok, hnew, wfWrite_ok hok']

/-! ### What WRFIELD wrote, RDFIELD returns (R135) -/

/-- A command that answered with OK did not answer with any other status. -/
theorem status_of_answered_ok {s : State} {q : Response} {op : Byte} {r1 r2 : Word}
    (h : (s.respond q).responses = s.responses ++ [okWith op r1 r2]) : q.status = .ok := by
  rw [State.respond_responses, List.append_cancel_left_eq, List.singleton_inj] at h
  exact congrArg Response.status h

/-- A write that is answered with OK was acknowledged. -/
theorem wfWrite_of_answered_ok {f : RegisterField} {new : Word} {s : State}
    (h : (wfWrite f new s).responses = s.responses ++ [okWith 0x02 0 0]) :
    wfWrite f new s = (s.wrote f.addr f.width new).respond (okWith 0x02 0 0) := by
  cases ha : s.nextAnswer.ok with
  | true => exact wfWrite_ok ha f new
  | false =>
    rw [wfWrite_failed ha] at h
    exact nomatch status_of_answered_ok (s := s.writeFailed f.addr f.width new) h

/-- Where WRFIELD answers OK, its last transaction wrote a word whose field is the value (R132, R133, R136). -/
theorem wrfield_wrote_value {f : RegisterField} {v : Word} {s t : State} (hf : f.wf = true)
    (h : exec (.wrfield f v) s = .next t) (hok : t.responses = s.responses ++ [okWith 0x02 0 0]) :
    ∃ new, t.trace.getLast? = some (.memWrite f.addr f.width new true) ∧ fieldValue f new = v := by
  have written {u : State} {new : Word} (ht : wfWrite f new u = t) (hr : u.responses = s.responses) :
      t.trace.getLast? = some (.memWrite f.addr f.width new true) := by
    rw [← ht, ← hr] at hok
    rw [← ht, wfWrite_of_answered_ok hok]
    exact List.getLast?_concat
  cases hv : fits f v with
  | false =>
    cases (exec_wrfield_misfit hv s).symm.trans h
    exact nomatch status_of_answered_ok hok
  | true =>
    cases hw : fullWidth f with
    | true =>
      cases (exec_wrfield_full hv hw s).symm.trans h
      exact ⟨v, written rfl rfl, if_pos hw⟩
    | false =>
      cases (exec_wrfield_partial hv hw s).symm.trans h
      cases ha : s.nextAnswer.ok with
      | true =>
        have hread := State.memRead_ok ha .wrfield f.addr f.width fun cur => wfWrite f (mergeField f cur v)
        refine ⟨_, written hread.symm rfl, ?_⟩
        rw [fieldValue, if_neg (by simp [hw]), fieldOffset_of_wf hf, field_mergeField hf hv]
      | false =>
        rw [State.memRead_eq_readFailed ha] at hok
        exact nomatch status_of_answered_ok (s := s.readFailed f.addr f.width) hok

/-- Settles O32: the word written holds the value (`wrfield_wrote_value`), and the read returns that field of it. -/
theorem writeThenReadReturnsValue : Obligations.WriteThenReadReturnsValue := by
  intro f v new s t hf hexec hok hlast hans hread
  obtain ⟨new', hlast', hvalue⟩ := wrfield_wrote_value hf hexec hok
  cases hlast'.symm.trans hlast
  rw [exec_rdfield, rfRead_ok hans, hread, readResult_of_wf hf, hvalue]

/-! ### The codec and the registers (R130) -/

/-- What a word read goes on with decides whether the registers matter. -/
theorem State.memRead_withRegs {k : Word → State → State} {r : Regs}
    (hk : ∀ v u, k v (u.withRegs r) = (k v u).withRegs r) (s : State) (op : Opcode) (a : Byte) (w : Width) :
    (s.withRegs r).memRead op a w k = (s.memRead op a w k).withRegs r := by
  cases ha : s.nextAnswer.ok with
  | true => rw [State.memRead_ok ha, ← hk, State.memRead_ok (s := s.withRegs r) ha]; rfl
  | false => rw [State.memRead_fail ha, State.memRead_fail (s := s.withRegs r) ha]; rfl

theorem rfRead_withRegs (f : RegisterField) (s : State) (r : Regs) :
    rfRead f (s.withRegs r) = (rfRead f s).withRegs r :=
  State.memRead_withRegs (fun _ _ => rfl) s _ _ _

theorem wfWrite_withRegs (f : RegisterField) (new : Word) (s : State) (r : Regs) :
    wfWrite f new (s.withRegs r) = (wfWrite f new s).withRegs r := by
  cases ha : s.nextAnswer.ok with
  | true => rw [wfWrite_ok ha, wfWrite_ok (s := s.withRegs r) ha]; rfl
  | false => rw [wfWrite_failed ha, wfWrite_failed (s := s.withRegs r) ha]; rfl

/-- A codec command runs alike on any registers, and hands them on. -/
theorem codec_withRegs {i : Instr} {s t : State} (hi : i.opcode ∈ [Opcode.rdfield, .wrfield])
    (h : exec i s = .next t) (r : Regs) : exec i (s.withRegs r) = .next (t.withRegs r) := by
  cases i with
  | rdfield f =>
    cases (exec_rdfield f s).symm.trans h
    rw [exec_rdfield, rfRead_withRegs]
  | wrfield f v =>
    cases hv : fits f v with
    | false =>
      cases (exec_wrfield_misfit hv s).symm.trans h
      exact exec_wrfield_misfit hv _
    | true =>
      cases hw : fullWidth f with
      | true =>
        cases (exec_wrfield_full hv hw s).symm.trans h
        rw [exec_wrfield_full hv hw, wfWrite_withRegs]
      | false =>
        cases (exec_wrfield_partial hv hw s).symm.trans h
        rw [exec_wrfield_partial hv hw, State.memRead_withRegs fun _ u => wfWrite_withRegs f _ u r]
  | _ => simp [Instr.opcode] at hi

/-- Settles O33: `codec_withRegs`; with the registers the state has, it says that the command leaves them as they
are. -/
theorem codecIgnoresRegisters : Obligations.CodecIgnoresRegisters := by
  intro i s t r hi h
  have hkept : t = t.withRegs s.regs := Host.Outcome.next.inj (h.symm.trans (codec_withRegs hi h s.regs))
  exact ⟨by rw [hkept, State.withRegs_regs], codec_withRegs hi h r⟩

end Sys2Proof.Machine
end

section
/-! PROOF. The mode byte, the timeouts, and what each transaction of INIT, SETMODE and SWRESET leads to; the runs of the
three commands (O34, O35, O37, O38, O39, O41, O42, O43). -/

namespace Sys2Proof.Machine

/-! ### The mode byte, the timeouts, the registers (R161, R164, R165, R167) -/

/-- The shifts of R164 and the concatenation of R167 are the same byte. -/
theorem measModeByte_eq (m : ModeArgs) : measModeByte m = (modeByte m).setWidth 32 := by
  obtain ⟨mode, drdy, thr⟩ := m
  revert mode drdy thr
  decide

/-- Settles O43. -/
theorem modeBytePacking : Obligations.ModeBytePacking := by
  intro m
  refine ⟨measModeByte_eq m, ?_⟩
  obtain ⟨mode, drdy, thr⟩ := m
  revert mode drdy thr
  decide

/-- Settles O34. -/
theorem derivedTimeouts : Obligations.DerivedTimeouts := by
  unfold Obligations.DerivedTimeouts
  decide

/-- A mode is one of the five codes. -/
theorem mode_cases : ∀ {code : BitVec 3}, code.toNat ≤ 4 → code = 0 ∨ code = 1 ∨ code = 2 ∨ code = 3 ∨ code = 4 := by
  decide

/-- The registers a mode write leaves, with the timeouts of R165 written out. -/
theorem Regs.dropCache_withMode (r : Regs) {code : BitVec 3} (h : code.toNat ≤ 4) :
    r.dropCache.withMode code = modeRegs r code := by
  obtain rfl | rfl | rfl | rfl | rfl := mode_cases h <;> rfl

/-- R161 (c): INIT's timeout is twice the derived one. -/
theorem initWait_eq (r : Regs) {code : BitVec 3} (h : code.toNat ≤ 4) (h0 : code ≠ 0) :
    Config.initWaitFactor * (modeRegs r code).pollTimeout.toNat =
      if code = 1 then 2200 else if code = 2 then 22000 else if code = 3 then 132000 else 550 := by
  obtain rfl | rfl | rfl | rfl | rfl := mode_cases h
  · exact absurd rfl h0
  all_goals rfl

/-! ### The port primitives as the statements name them -/

theorem setWidth_wordOf_w8 (a : Answer) : (wordOf a .w8).setWidth 8 = a.b0 :=
  BitVec.setWidth_setWidth_of_le _ (by decide)

/-- A state of which only `pc` is known, as the run's rules name it. -/
theorem complete_of_pc {s : State} {p : Pc} (h : s.pc = p) : s.complete = (s.goto p).complete := by
  subst h
  rfl

theorem State.memWrite_eq_wrote {s : State} (h : s.nextAnswer.ok = true) (op : Opcode) (a : Byte) (w : Width)
    (v : Word) (k : State → State) : s.memWrite op a w v k = k (s.wrote a w v) := memWrite_ok h op a w v k

theorem State.memWrite_eq_writeFailed {s : State} (h : s.nextAnswer.ok = false) (op : Opcode) (a : Byte) (w : Width)
    (v : Word) (k : State → State) :
    s.memWrite op a w v k = (s.writeFailed a w v).respond (transportFailure op.byte true a) := by
  rw [memWrite_fail h, raise_eq, transportError_response, writeFailed]

/-- R22: the sequencer's status read, done. -/
theorem State.readStatus_eq_mirror {s : State} (h : s.nextAnswer.ok = true) (op : Opcode) (k : Byte → State → State) :
    s.readStatus op k = k s.nextAnswer.b0 ((s.sawByte 0x00).withRegs (s.regs.mirror s.nextAnswer.b0)) := by
  rw [readStatus_ok h, setWidth_wordOf_w8]
  rfl

theorem State.readStatus_eq_readFailed {s : State} (h : s.nextAnswer.ok = false) (op : Opcode)
    (k : Byte → State → State) :
    s.readStatus op k = (s.readFailed 0x00 .w8).respond (transportFailure op.byte false 0x00) :=
  memRead_eq_readFailed h op _ _ _

/-- R164: the mode write, done. -/
theorem State.writeMode_eq_wrote {s : State} (h : s.nextAnswer.ok = true) (op : Opcode) (m : ModeArgs)
    (k : State → State) :
    s.writeMode op m k = k ((s.wrote 0x01 .w8 (measModeByte m)).withRegs (s.regs.withMode m.mode)) := by
  rw [measModeByte_eq]
  exact memWrite_ok h op _ _ _ _

theorem State.writeMode_eq_writeFailed {s : State} (h : s.nextAnswer.ok = false) (op : Opcode) (m : ModeArgs)
    (k : State → State) :
    s.writeMode op m k =
      (s.writeFailed 0x01 .w8 (measModeByte m)).respond (transportFailure op.byte true 0x01) := by
  rw [measModeByte_eq]
  exact memWrite_eq_writeFailed h op _ _ _ _

/-! ### SETMODE and SWRESET (R166, R170) -/

theorem modeInvalid_of_gt {m : ModeArgs} (h : 4 < m.mode.toNat) : modeInvalid m = true :=
  (modeInvalid_iff m).mpr (by omega)

theorem accept_setmode_invalid {s : State} {m : ModeArgs} (hc : s.regs.constructed = true) (hm : 4 < m.mode.toNat) :
    s.accept (.setmode m) = s.raise .setmode (.invalidMeasurementMode m.mode) :=
  (State.withHandle_constructed hc _ _).trans (if_pos (modeInvalid_of_gt hm))

theorem accept_setmode_unconstructed {s : State} (hc : s.regs.constructed = false) (m : ModeArgs) :
    s.accept (.setmode m) = s.raise .setmode .notConstructed := if_neg (by simp [hc])

/-- R166: SETMODE with its checks passed is its one write. -/
theorem exec_setmode {s : State} {m : ModeArgs} (hc : s.regs.constructed = true) (hm : m.mode.toNat ≤ 4) :
    exec (.setmode m) s = .next (smWrite m (s.withRegs s.regs.dropCache)) := by
  rw [exec_eq_accept, accept_setmode hc hm, complete_smWrite]
  exact congrArg _ (State.writeMode_rule (P := fun t => t.complete = t) (fun _ _ => complete_respond _ _) fun _ =>
    complete_respond _ _)

/-- Settles O41: the two refusals, and `exec_setmode` with either outcome of the write. -/
theorem setmodeRule : Obligations.SetmodeRule := by
  intro m s
  refine ⟨fun hc => ?_, fun hc hm => ?_, fun hc hm hfail => ?_, fun hc hm hok => ?_⟩
  · rw [exec_eq_accept, accept_setmode_unconstructed hc, State.raise_eq, complete_respond]
    rfl
  · rw [exec_eq_accept, accept_setmode_invalid hc hm, State.raise_eq, complete_respond]
    rfl
  · rw [exec_setmode hc hm, smWrite, State.writeMode_eq_writeFailed (s := s.withRegs s.regs.dropCache) hfail]
    rfl
  · rw [exec_setmode hc hm, smWrite, State.writeMode_eq_wrote (s := s.withRegs s.regs.dropCache) hok,
      State.withRegs_regs,
      Regs.dropCache_withMode _ hm]
    rfl

/-- R170: SWRESET is its one write, on a dropped handle. -/
theorem exec_swreset (s : State) : exec .swreset s = .next (srWrite (s.withRegs s.regs.dropHandle)) := by
  have haccept : s.accept .swreset = (s.withRegs s.regs.dropHandle).goto .srWrite := rfl
  rw [exec_eq_accept, haccept, complete_srWrite]
  exact congrArg _ (State.memWrite_rule (P := fun t => t.complete = t) (fun _ _ => complete_respond _ _) fun _ =>
    complete_respond _ _)

/-- Settles O42: `exec_swreset` with either outcome of the write. -/
theorem swresetRule : Obligations.SwresetRule := by
  refine ⟨fun s => ⟨fun hok => ?_, fun hfail => ?_⟩, by decide⟩
  · rw [exec_swreset, srWrite, State.memWrite_eq_wrote (s := s.withRegs s.regs.dropHandle) hok]
    rfl
  · rw [exec_swreset, srWrite, State.memWrite_eq_writeFailed (s := s.withRegs s.regs.dropHandle) hfail]
    rfl

/-! ### What each transaction of INIT leads to (R161 to R164) -/

section
variable (m : ModeArgs) (w : Bool) {s : State}

theorem inHwid_right (hok : s.nextAnswer.ok = true) (hid : s.nextAnswer.b0 = 0x81) :
    inHwid m w s = (s.sawByte 0x20).goto (.inStatus m w) := by
  rw [inHwid, State.memRead_ok hok, setWidth_wordOf_w8]
  exact if_pos hid

theorem inHwid_wrong (hok : s.nextAnswer.ok = true) (hid : s.nextAnswer.b0 ≠ 0x81) :
    inHwid m w s =
      (s.sawByte 0x20).respond ⟨.unexpectedHardwareId, 0x10, s.nextAnswer.b0.setWidth 16, 0, 0⟩ := by
  rw [inHwid, State.memRead_ok hok, setWidth_wordOf_w8]
  exact if_neg hid

theorem inHwid_failed (hfail : s.nextAnswer.ok = false) :
    inHwid m w s = (s.readFailed 0x20 .w8).respond (transportFailure 0x10 false 0x20) :=
  State.memRead_eq_readFailed hfail _ _ _ _

/-- The mode the first status read shows chooses the next state (R161 step 2). -/
theorem inStatus_ok (hok : s.nextAnswer.ok = true) :
    inStatus m w s =
      if (s.regs.mirror s.nextAnswer.b0).devmode = .boot then
        ((s.sawByte 0x00).withRegs (s.regs.mirror s.nextAnswer.b0)).goto (.inAppstart m w)
      else ((s.sawByte 0x00).withRegs (s.regs.mirror s.nextAnswer.b0)).goto (.inSetmode m w) :=
  State.readStatus_eq_mirror hok _ _

theorem inStatus_failed (hfail : s.nextAnswer.ok = false) :
    inStatus m w s = (s.readFailed 0x00 .w8).respond (transportFailure 0x10 false 0x00) :=
  State.readStatus_eq_readFailed hfail _ _

theorem inAppstart_ok (hok : s.nextAnswer.ok = true) :
    inAppstart m w s = (s.event (.memWriteBlock 0xF4 [] true) 0).goto (.inSettle m w) := if_pos hok

theorem inAppstart_failed (hfail : s.nextAnswer.ok = false) :
    inAppstart m w s =
      (s.event (.memWriteBlock 0xF4 [] false) 0).respond (transportFailure 0x10 true 0xF4) := by
  rw [inAppstart, State.memWriteBlock, if_neg (by simp [hfail]), State.raise_eq, transportError_response]
  rfl

/-- The status read after the settle sleep decides whether the sensor has started (R163). -/
theorem inRecheck_ok (hok : s.nextAnswer.ok = true) :
    inRecheck m w s =
      if (s.regs.mirror s.nextAnswer.b0).devmode = .boot then
        ((s.sawByte 0x00).withRegs (s.regs.mirror s.nextAnswer.b0)).respond
          ⟨.modeTransitionFailed, 0x10, s.nextAnswer.b0.setWidth 16, 0, 0⟩
      else ((s.sawByte 0x00).withRegs (s.regs.mirror s.nextAnswer.b0)).goto (.inSetmode m w) :=
  State.readStatus_eq_mirror hok _ _

theorem inRecheck_failed (hfail : s.nextAnswer.ok = false) :
    inRecheck m w s = (s.readFailed 0x00 .w8).respond (transportFailure 0x10 false 0x00) :=
  State.readStatus_eq_readFailed hfail _ _

theorem inSetmode_failed (hfail : s.nextAnswer.ok = false) :
    inSetmode m w s = ((s.writeFailed 0x01 .w8 (measModeByte m)).withRegs s.regs.dropCache).respond
      (transportFailure 0x10 true 0x01) := by
  rw [inSetmode, State.setModeCore, State.invalidateCache_eq,
    State.writeMode_eq_writeFailed (s := s.withRegs s.regs.dropCache) hfail]
  rfl

theorem inSetmode_ok (hm : m.mode.toNat ≤ 4) (hok : s.nextAnswer.ok = true) :
    inSetmode m w s =
      let t := (s.wrote 0x01 .w8 (measModeByte m)).withRegs (modeRegs s.regs m.mode)
      if w && m.mode != 0 then
        t.startPoll .init (Config.initWaitFactor * (modeRegs s.regs m.mode).pollTimeout.toNat)
      else t.construct.returnOk .init 0 0 := by
  rw [inSetmode, State.setModeCore, State.invalidateCache_eq,
    State.writeMode_eq_wrote (s := s.withRegs s.regs.dropCache) hok, State.withRegs_regs, Regs.dropCache_withMode _ hm]
  rfl

end

/-! ### INIT (R161 to R163) -/

/-- R162: INIT with a valid mode starts with the identity check of a new handle. -/
theorem exec_init {m : ModeArgs} (hm : m.mode.toNat ≤ 4) (w : Bool) (s : State) :
    exec (.init m w) s = .next (inHwid m w (s.withRegs (initRegs s.regs))).complete := by
  rw [exec_eq_accept, accept_init hm, complete_inHwid]
  rfl

theorem exec_init_identified {m : ModeArgs} (hm : m.mode.toNat ≤ 4) (w : Bool) {s : State}
    (hok : s.nextAnswer.ok = true) (hid : s.nextAnswer.b0 = 0x81) :
    exec (.init m w) s =
      .next (((s.sawByte 0x20).withRegs (initRegs s.regs)).goto (.inStatus m w)).complete := by
  rw [exec_init hm, inHwid_right m w (s := s.withRegs (initRegs s.regs)) hok hid]
  rfl

theorem exec_init_invalid {m : ModeArgs} (hm : 4 < m.mode.toNat) (w : Bool) (s : State) :
    exec (.init m w) s = .next (s.respond ⟨.invalidMeasurementMode, 0x10, m.mode.setWidth 16, 0, 0⟩) := by
  have haccept : s.accept (.init m w) = s.raise .init (.invalidMeasurementMode m.mode) :=
    if_pos (modeInvalid_of_gt hm)
  rw [exec_eq_accept, haccept, State.raise_eq, complete_respond]
  rfl

/-- Settles O35: the refusal, and the three outcomes of the identity check. -/
theorem initChecksModeThenIdentity : Obligations.InitChecksModeThenIdentity := by
  intro m w s
  refine ⟨fun hm => exec_init_invalid hm w s, fun hm => ?_⟩
  rw [exec_init hm]
  refine ⟨fun hfail => ?_, fun hok hid => ?_, fun hok hid => ?_⟩
  · rw [inHwid_failed m w hfail, complete_respond]
  · rw [inHwid_wrong m w hok hid, complete_respond]
  · rw [inHwid_right m w hok hid]

/-- Settles O39: `inSetmode_ok`, and twice the derived timeouts. -/
theorem initWaitsTwiceTheTimeout : Obligations.InitWaitsTwiceTheTimeout := by
  intro m s hp h1 hm hok
  have h0 : m.mode ≠ 0 := by
    intro h
    rw [h] at h1
    exact absurd h1 (by decide)
  rw [complete_of_pc hp, complete_inSetmode, inSetmode_ok m true hm hok]
  dsimp only
  have hwait : (true && m.mode != 0) = true := bne_iff_ne.mpr h0
  rw [if_pos hwait, initWait_eq _ hm h0]
  rfl

/-! The rest of INIT from each state, where the sensor goes along: events, then the registers, then `goto`. -/

section
variable {m : ModeArgs} {w : Bool} {s : State} {r : Regs}

/-- R161 step 3 without step 4: the mode write ends the construction. -/
theorem complete_inSetmode_constructs (hm : m.mode.toNat ≤ 4) (hw : w = false ∨ m.mode = 0)
    (hok : s.nextAnswer.ok = true) :
    ((s.withRegs r).goto (.inSetmode m w)).complete =
      ((s.wrote 0x01 .w8 (measModeByte m)).withRegs (modeRegs r m.mode).construct).respond (okWith 0x10 0 0) := by
  have hnowait : ¬(w && m.mode != 0) = true := by
    obtain rfl | h0 := hw
    · simp
    · simp [h0]
  rw [complete_inSetmode, inSetmode_ok m w (s := s.withRegs r) hm hok]
  dsimp only
  rw [if_neg hnowait, State.returnOk_eq, complete_respond]
  rfl

theorem Regs.mirror_app {st : Byte} (h : st.getLsbD 7 = Config.fwModeApp) :
    r.mirror st = { r with devmode := .app } := by rw [Regs.mirror, if_pos h]

theorem Regs.mirror_boot {st : Byte} (h : st.getLsbD 7 ≠ Config.fwModeApp) :
    r.mirror st = { r with devmode := .boot } := by rw [Regs.mirror, if_neg h]

variable (hok : s.nextAnswer.ok = true)
include hok

/-- R161 step 2: a sensor in App needs no start. -/
theorem complete_inStatus_app (happ : s.nextAnswer.b0.getLsbD 7 = Config.fwModeApp) :
    ((s.withRegs r).goto (.inStatus m w)).complete =
      (((s.sawByte 0x00).withRegs { r with devmode := .app }).goto (.inSetmode m w)).complete := by
  rw [complete_inStatus, inStatus_ok m w (s := s.withRegs r) hok, State.nextAnswer_withRegs,
    Regs.mirror_app happ, if_neg nofun]
  rfl

theorem complete_inStatus_boot (hboot : s.nextAnswer.b0.getLsbD 7 ≠ Config.fwModeApp) :
    ((s.withRegs r).goto (.inStatus m w)).complete =
      (((s.sawByte 0x00).withRegs { r with devmode := .boot }).goto (.inAppstart m w)).complete := by
  rw [complete_inStatus, inStatus_ok m w (s := s.withRegs r) hok, State.nextAnswer_withRegs,
    Regs.mirror_boot hboot, if_pos rfl]
  rfl

/-- R163: APP_START acknowledged, then the settle sleep. -/
theorem complete_inAppstart_ok :
    ((s.withRegs r).goto (.inAppstart m w)).complete =
      ((((s.event (.memWriteBlock 0xF4 [] true) 0).event (.sleep 2) 2).withRegs r).goto (.inRecheck m w)).complete := by
  rw [complete_inAppstart, inAppstart_ok m w (s := s.withRegs r) hok, complete_inSettle]
  rfl

theorem complete_inRecheck_app (happ : s.nextAnswer.b0.getLsbD 7 = Config.fwModeApp) :
    ((s.withRegs r).goto (.inRecheck m w)).complete =
      (((s.sawByte 0x00).withRegs { r with devmode := .app }).goto (.inSetmode m w)).complete := by
  rw [complete_inRecheck, inRecheck_ok m w (s := s.withRegs r) hok, State.nextAnswer_withRegs,
    Regs.mirror_app happ, if_neg nofun]
  rfl

end

/-- The registers of a handle constructed on a sensor in App (R161). -/
theorem modeRegs_construct_app (r : Regs) (code : BitVec 3) :
    (modeRegs { r with devmode := .app } code).construct =
      { modeRegs r code with constructed := true, devmode := .app } := by
  unfold modeRegs
  split <;> rfl

/-- Settles O37: identity check, status read in App, mode write. -/
theorem initFromAppConstructs : Obligations.InitFromAppConstructs := by
  intro m w s hm hw s1 s2 hok hid hok1 happ hok2
  rw [exec_init_identified hm w hok hid, complete_inStatus_app hok1 happ, complete_inSetmode_constructs hm hw hok2,
    modeRegs_construct_app]

/-- Settles O38: identity check, status read in Boot, the start of R163, mode write. -/
theorem initFromBootConstructs : Obligations.InitFromBootConstructs := by
  intro m w s hm hw s1 s2 s3 s4 s5 hok hid hok1 hboot hok2 hok4 happ hok5
  have hregs : { initRegs s.regs with devmode := .boot } = initRegs s.regs := rfl
  rw [exec_init_identified hm w hok hid, complete_inStatus_boot hok1 hboot, hregs, complete_inAppstart_ok hok2,
    complete_inRecheck_app hok4 happ, complete_inSetmode_constructs hm hw hok5, modeRegs_construct_app]

end Sys2Proof.Machine
end

section
/-! PROOF. How an INIT runs, by induction over its micro-steps: what its events and its registers say of each other in
each sequencer state, and at its response (O36, O40). -/

namespace Sys2Proof.Machine

/-! ### What the events of an INIT tell (R22, R163) -/

/-- The status bytes that the sequencer's own reads brought, in order (R22). -/
def statusesShown (evs : List BusEvent) : List Word := evs.filterMap BusEvent.status?

/-- How often APP_START was written, acknowledged or not (R163). -/
def appStarts (evs : List BusEvent) : Nat := evs.countP fun e => e.access? == some (true, 0xF4, 0)

/-- The first status read that succeeded showed Boot (R163). -/
def firstShowsBoot (evs : List BusEvent) : Bool :=
  (statusesShown evs).head?.any fun v => v.getLsbD 7 != Config.fwModeApp

/-- The acknowledged mode write of an INIT (R161 step 3). -/
def modeAck (m : ModeArgs) : BusEvent := .memWrite 0x01 .w8 (measModeByte m) true

/-- The done read of the status byte `st`. -/
def statusRead (st : Byte) : BusEvent := .memRead 0x00 .w8 (some (st.setWidth 32))

/-- An event that shows no status, does not write APP_START and does not acknowledge the mode write. -/
structure BusEvent.Plain (m : ModeArgs) (e : BusEvent) : Prop where
  status : e.status? = none
  start : e.access? ≠ some (true, 0xF4, 0)
  ack : e ≠ modeAck m

theorem BusEvent.Plain.readFailed (m : ModeArgs) (a : Byte) (w : Width) : Plain m (.memRead a w none) :=
  ⟨by simp [status?], nofun, nofun⟩

theorem BusEvent.Plain.hwid (m : ModeArgs) (v : Word) : Plain m (.memRead 0x20 .w8 (some v)) :=
  ⟨rfl, nofun, nofun⟩

theorem BusEvent.Plain.sleep (m : ModeArgs) (n : Nat) : Plain m (.sleep n) := ⟨rfl, nofun, nofun⟩

theorem BusEvent.Plain.writeFailed (m : ModeArgs) (v : Word) : Plain m (.memWrite 0x01 .w8 v false) :=
  ⟨rfl, nofun, nofun⟩

theorem BusEvent.Plain.readBlock (m : ModeArgs) (a : Byte) (n : Nat) (o : BlockOutcome) :
    Plain m (.memReadBlock a n o) :=
  ⟨rfl, nofun, nofun⟩

theorem statusesShown_concat (evs : List BusEvent) (e : BusEvent) :
    statusesShown (evs ++ [e]) = statusesShown evs ++ e.status?.toList := by
  cases h : e.status? <;> simp [statusesShown, h]

theorem statusesShown_concat_statusRead (evs : List BusEvent) (st : Byte) :
    statusesShown (evs ++ [statusRead st]) = statusesShown evs ++ [st.setWidth 32] := statusesShown_concat _ _

theorem appStarts_concat (evs : List BusEvent) (e : BusEvent) :
    appStarts (evs ++ [e]) = appStarts evs + if e.access? = some (true, 0xF4, 0) then 1 else 0 := by
  simp [appStarts, List.countP_singleton]

theorem getLsbD_seven_setWidth (st : Byte) : (st.setWidth 32).getLsbD 7 = st.getLsbD 7 := by
  simp

theorem mirrorAfter_concat_statusRead (evs : List BusEvent) (st : Byte) :
    mirrorAfter (evs ++ [statusRead st]) = deviceModeOf st := by
  have h := statusesShown_concat_statusRead evs st
  rw [statusesShown] at h
  rw [mirrorAfter, h, List.getLast?_concat, deviceModeOf]
  simp only [getLsbD_seven_setWidth]

theorem mirrorAfter_concat_of_none {e : BusEvent} (he : e.status? = none) (evs : List BusEvent) :
    mirrorAfter (evs ++ [e]) = mirrorAfter evs := by
  simp [mirrorAfter, he]

/-- A later status read does not change what the first one showed. -/
theorem firstShowsBoot_concat {evs : List BusEvent} (h : statusesShown evs ≠ []) (e : BusEvent) :
    firstShowsBoot (evs ++ [e]) = firstShowsBoot evs := by
  rw [firstShowsBoot, statusesShown_concat, List.head?_append_of_ne_nil _ h, firstShowsBoot]

theorem firstShowsBoot_of_none {evs : List BusEvent} (h : statusesShown evs = []) : firstShowsBoot evs = false := by
  rw [firstShowsBoot, h]
  rfl

theorem firstShowsBoot_statusRead {evs : List BusEvent} (h : statusesShown evs = []) (st : Byte) :
    firstShowsBoot (evs ++ [statusRead st]) = (deviceModeOf st == .boot) := by
  rw [firstShowsBoot, statusesShown_concat_statusRead, h, deviceModeOf, List.nil_append, List.head?_cons,
    Option.any_some, getLsbD_seven_setWidth]
  by_cases hb : st.getLsbD 7 = Config.fwModeApp
  · rw [if_pos hb, hb, bne_self_eq_false]
    rfl
  · rw [if_neg hb, bne_iff_ne.mpr hb]
    rfl

/-- How far an INIT is with R163: no status read has succeeded yet; the first one showed Boot and APP_START is next;
APP_START was written if the first one showed Boot. -/
inductive StartStage
  | unread | due | settled

/-- What the events of an INIT are at each stage of R163. -/
def StartStage.Holds (evs : List BusEvent) : StartStage → Prop
  | .unread => statusesShown evs = [] ∧ appStarts evs = 0
  | .due => statusesShown evs ≠ [] ∧ firstShowsBoot evs = true ∧ appStarts evs = 0
  | .settled => statusesShown evs ≠ [] ∧ appStarts evs = (firstShowsBoot evs).toNat

/-! ### The registers of an INIT (R21, R22, R161, R164) -/

/-- The registers of an INIT that started with `r`, while it has no handle: a new handle's with the mirror `d`, and
the mode it was asked for once the mode write was acknowledged. -/
def initRegsAt (m : ModeArgs) (r : Regs) (written : Bool) (d : DeviceMode) : Regs :=
  let new := { initRegs r with devmode := d }
  if written then modeRegs new m.mode else new

/-- The events `evs` of an INIT and its registers `r'` agree: the mirror is that of the last status read, the mode is
set if the mode write was acknowledged, and R163 has come to `stage`. -/
structure InitLog (m : ModeArgs) (r : Regs) (written : Bool) (stage : StartStage) (evs : List BusEvent)
    (r' : Regs) : Prop where
  regs : r' = initRegsAt m r written (mirrorAfter evs)
  ack : modeAck m ∈ evs ↔ written = true
  start : stage.Holds evs

section
variable {m : ModeArgs} {r r' : Regs} {written : Bool} {stage : StartStage} {evs : List BusEvent}

theorem initRegsAt_mirror (d : DeviceMode) (st : Byte) :
    (initRegsAt m r written d).mirror st = initRegsAt m r written (deviceModeOf st) := by
  cases written with
  | false => rfl
  | true =>
    simp only [initRegsAt, if_true, modeRegs]
    split <;> rfl

theorem initRegsAt_dropCache (d : DeviceMode) : (initRegsAt m r false d).dropCache = initRegsAt m r false d := rfl

theorem StartStage.Holds.plain {e : BusEvent} (h : stage.Holds evs) (he : e.Plain m) : stage.Holds (evs ++ [e]) := by
  have hs : statusesShown (evs ++ [e]) = statusesShown evs := by simp [statusesShown_concat, he.status]
  have ha : appStarts (evs ++ [e]) = appStarts evs := by rw [appStarts_concat, if_neg he.start, Nat.add_zero]
  cases stage <;> simpa only [Holds, firstShowsBoot, hs, ha] using h

theorem InitLog.plain {e : BusEvent} (h : InitLog m r written stage evs r') (he : e.Plain m) :
    InitLog m r written stage (evs ++ [e]) r' where
  regs := by rw [mirrorAfter_concat_of_none he.status, h.regs]
  ack := by rw [← h.ack, List.mem_append, List.mem_singleton, or_iff_left he.ack.symm]
  start := h.start.plain he

/-- A status read sets the mirror, whatever it does to the stage. -/
theorem InitLog.samples {st : Byte} {stage' : StartStage} (h : InitLog m r written stage evs r')
    (hs : stage'.Holds (evs ++ [statusRead st])) :
    InitLog m r written stage' (evs ++ [statusRead st]) (r'.mirror st) where
  regs := by rw [mirrorAfter_concat_statusRead, h.regs, initRegsAt_mirror]
  ack := by rw [← h.ack, List.mem_append, List.mem_singleton, or_iff_left nofun]
  start := hs

theorem InitLog.resamples (h : InitLog m r written .settled evs r') (st : Byte) :
    InitLog m r written .settled (evs ++ [statusRead st]) (r'.mirror st) := by
  obtain ⟨hshown, hstarts⟩ := h.start
  refine h.samples ⟨by simp [statusesShown_concat_statusRead], ?_⟩
  rw [appStarts_concat, firstShowsBoot_concat hshown, if_neg nofun, hstarts, Nat.add_zero]

/-- The first status read shows Boot, and APP_START is due. -/
theorem InitLog.showsBoot {st : Byte} (h : InitLog m r written .unread evs r') (hb : deviceModeOf st = .boot) :
    InitLog m r written .due (evs ++ [statusRead st]) (r'.mirror st) := by
  obtain ⟨hnone, hstarts⟩ := h.start
  refine h.samples ⟨by simp [statusesShown_concat_statusRead], ?_, ?_⟩
  · rw [firstShowsBoot_statusRead hnone, hb]
    rfl
  · rw [appStarts_concat, if_neg nofun, hstarts]

/-- The first status read shows App, and there is nothing to start. -/
theorem InitLog.showsApp {st : Byte} (h : InitLog m r written .unread evs r') (hb : deviceModeOf st ≠ .boot) :
    InitLog m r written .settled (evs ++ [statusRead st]) (r'.mirror st) := by
  obtain ⟨hnone, hstarts⟩ := h.start
  refine h.samples ⟨by simp [statusesShown_concat_statusRead], ?_⟩
  rw [appStarts_concat, if_neg nofun, hstarts, firstShowsBoot_statusRead hnone, beq_false_of_ne hb]
  rfl

/-- APP_START is written once. -/
theorem InitLog.starts (h : InitLog m r written .due evs r') (ok : Bool) :
    InitLog m r written .settled (evs ++ [.memWriteBlock 0xF4 [] ok]) r' := by
  obtain ⟨hshown, hboot, hstarts⟩ := h.start
  refine ⟨?_, ?_, ?_, ?_⟩
  · rw [mirrorAfter_concat_of_none rfl, h.regs]
  · rw [← h.ack, List.mem_append, List.mem_singleton, or_iff_left nofun]
  · simp [statusesShown_concat, hshown]
  · rw [appStarts_concat, firstShowsBoot_concat hshown, hboot, hstarts]
    rfl

/-- The mode write is acknowledged. -/
theorem InitLog.acknowledges (h : InitLog m r false .settled evs r') :
    InitLog m r true .settled (evs ++ [modeAck m]) (modeRegs r' m.mode) := by
  obtain ⟨hshown, hstarts⟩ := h.start
  refine ⟨?_, by simp, ?_, ?_⟩
  · rw [mirrorAfter_concat_of_none rfl, h.regs]
    rfl
  · simp [statusesShown_concat, hshown]
  · rw [appStarts_concat, firstShowsBoot_concat hshown, if_neg nofun, hstarts, Nat.add_zero]

end

/-! ### The states of an INIT, and its end (R30, R161) -/

/-- The states of an INIT in progress, with whether the mode is written and how far R163 is. -/
inductive InitAt (m : ModeArgs) (w : Bool) : Bool → StartStage → Pc → Prop
  | hwid : InitAt m w false .unread (.inHwid m w)
  | status : InitAt m w false .unread (.inStatus m w)
  | appstart : InitAt m w false .due (.inAppstart m w)
  | settle : InitAt m w false .settled (.inSettle m w)
  | recheck : InitAt m w false .settled (.inRecheck m w)
  | setmode : InitAt m w false .settled (.inSetmode m w)
  | poll (t0 T : Nat) (hw : (w && m.mode != 0) = true) : InitAt m w true .settled (.rrPoll .init t0 T)
  | sleep (t0 T : Nat) (hw : (w && m.mode != 0) = true) : InitAt m w true .settled (.rrSleep .init t0 T)
  | fetch (hw : (w && m.mode != 0) = true) : InitAt m w true .settled (.rrFetch .init)

/-- How an INIT ends, with the status `st` and the registers `r'` (R161 to R164, R269): it fails before or after the
mode write; it constructs its handle without a sample, or past its deadline; it constructs it with a sample. -/
inductive InitEnd (m : ModeArgs) (w : Bool) (r : Regs) (evs : List BusEvent) (st : Status) (r' : Regs) : Prop
  | failsBefore (stage : StartStage) (hg : stage ≠ .due) (hlog : InitLog m r false stage evs r')
      (hst : st = .transportError ∨ st = .unexpectedHardwareId ∨ st = .modeTransitionFailed ∧ r'.devmode = .boot)
  | failsAfter (hlog : InitLog m r true .settled evs r') (hst : st = .transportError ∨ st = .readFailed)
  | constructs (new : Regs) (hlog : InitLog m r true .settled evs new) (hr : r' = new.construct)
      (hst : st = .timeout ∨ st = .ok ∧ (w && m.mode != 0) = false)
  | samples (new : Regs) (b : ResultBlock) (hlog : InitLog m r true .settled evs new)
      (hr : r' = (new.fillCache b).construct) (hst : st = .ok) (hw : (w && m.mode != 0) = true)

/-- From the acceptance of an INIT in `s` to `t`: it is in progress, or it has answered. -/
inductive InitReached (m : ModeArgs) (w : Bool) (s t : State) : Prop
  | running (evs : List BusEvent) (written : Bool) (stage : StartStage) (htrace : t.trace = s.trace ++ evs)
      (hresp : t.responses = s.responses) (hat : InitAt m w written stage t.pc)
      (hlog : InitLog m s.regs written stage evs t.regs)
  | ended (evs : List BusEvent) (q : Response) (htrace : t.trace = s.trace ++ evs)
      (hresp : t.responses = s.responses ++ [q]) (hpc : t.pc = .idle)
      (hend : InitEnd m w s.regs evs q.status t.regs)

theorem accept_initReached {m : ModeArgs} (hm : m.mode.toNat ≤ 4) (w : Bool) (s : State) :
    InitReached m w s (s.accept (.init m w)) := by
  rw [accept_init hm]
  exact .running [] false .unread (List.append_nil _).symm rfl .hwid ⟨rfl, by simp, rfl, rfl⟩

section
variable {m : ModeArgs} {w : Bool} {s t u : State} {evs : List BusEvent} {e : BusEvent}
  (htrace : t.trace = s.trace ++ evs) (hresp : t.responses = s.responses) (he : u.trace = t.trace ++ [e])
  (hu : u.responses = t.responses)
include htrace hresp he hu

/-- An INIT in progress goes on after the event `e`. -/
theorem InitReached.goes {written : Bool} {stage : StartStage} {p : Pc} (hat : InitAt m w written stage p)
    (hlog : InitLog m s.regs written stage (evs ++ [e]) u.regs) : InitReached m w s (u.goto p) :=
  .running (evs ++ [e]) written stage (by rw [State.goto_trace, he, htrace, List.append_assoc]) (hu.trans hresp) hat
    hlog

/-- An INIT in progress answers after the event `e`. -/
theorem InitReached.ends {q : Response} (hend : InitEnd m w s.regs (evs ++ [e]) q.status u.regs) :
    InitReached m w s (u.respond q) :=
  .ended (evs ++ [e]) q (by rw [State.respond_trace, he, htrace, List.append_assoc])
    (by rw [State.respond_responses, hu, hresp]) rfl hend

end

/-- Every micro-step of an INIT leads on, or to its end. -/
theorem microStep_initReached {m : ModeArgs} (hm : m.mode.toNat ≤ 4) {w : Bool} {s t : State} (hp : t.pc ≠ .idle)
    (h : InitReached m w s t) : InitReached m w s (microStep t) := by
  obtain ⟨evs, written, stage, htrace, hresp, hat, hlog⟩ | ⟨_, _, _, _, hi, _⟩ := h
  case ended => exact absurd hi hp
  have goes {u : State} {e p written stage} (he : u.trace = t.trace ++ [e]) (hu : u.responses = t.responses)
      (hat : InitAt m w written stage p) := InitReached.goes htrace hresp he hu hat
  have ends {u : State} {e q} (he : u.trace = t.trace ++ [e]) (hu : u.responses = t.responses) :=
    InitReached.ends (m := m) (w := w) (q := q) htrace hresp he hu
  unfold microStep
  generalize hpc : t.pc = p at hat
  cases hat with
  | hwid =>
    dsimp only
    cases hok : t.nextAnswer.ok with
    | false =>
      rw [inHwid_failed m w hok]
      exact ends rfl rfl (.failsBefore .unread nofun (hlog.plain (.readFailed ..)) (.inl rfl))
    | true =>
      by_cases hid : t.nextAnswer.b0 = 0x81
      · rw [inHwid_right m w hok hid]
        exact goes rfl rfl .status (hlog.plain (.hwid ..))
      · rw [inHwid_wrong m w hok hid]
        exact ends rfl rfl (.failsBefore .unread nofun (hlog.plain (.hwid ..)) (.inr (.inl rfl)))
  | status =>
    dsimp only
    cases hok : t.nextAnswer.ok with
    | false =>
      rw [inStatus_failed m w hok]
      exact ends rfl rfl (.failsBefore .unread nofun (hlog.plain (.readFailed ..)) (.inl rfl))
    | true =>
      rw [inStatus_ok m w hok]
      exact iteInduction (fun hb => goes rfl rfl .appstart (hlog.showsBoot hb)) fun hb =>
        goes rfl rfl .setmode (hlog.showsApp hb)
  | appstart =>
    dsimp only
    cases hok : t.nextAnswer.ok with
    | false =>
      rw [inAppstart_failed m w hok]
      exact ends rfl rfl (.failsBefore .settled nofun (hlog.starts false) (.inl rfl))
    | true =>
      rw [inAppstart_ok m w hok]
      exact goes rfl rfl .settle (hlog.starts true)
  | settle => exact goes rfl rfl .recheck (hlog.plain (.sleep ..))
  | recheck =>
    dsimp only
    cases hok : t.nextAnswer.ok with
    | false =>
      rw [inRecheck_failed m w hok]
      exact ends rfl rfl (.failsBefore .settled nofun (hlog.plain (.readFailed ..)) (.inl rfl))
    | true =>
      rw [inRecheck_ok m w hok]
      exact iteInduction
        (fun hb => ends rfl rfl (.failsBefore .settled nofun (hlog.resamples _) (.inr (.inr ⟨rfl, hb⟩)))) fun _ =>
        goes rfl rfl .setmode (hlog.resamples _)
  | setmode =>
    dsimp only
    cases hok : t.nextAnswer.ok with
    | false =>
      have hdrop : t.regs.dropCache = t.regs := by rw [hlog.regs, initRegsAt_dropCache]
      rw [inSetmode_failed m w hok, hdrop]
      exact ends rfl rfl (.failsBefore .settled nofun (hlog.plain (.writeFailed ..)) (.inl rfl))
    | true =>
      rw [inSetmode_ok m w hm hok]
      refine iteInduction (fun hw => goes rfl rfl (.poll _ _ hw) hlog.acknowledges) fun hw => ?_
      exact ends rfl rfl (.constructs _ hlog.acknowledges rfl (.inr ⟨rfl, Bool.eq_false_iff.mpr hw⟩))
  | poll t0 T hw =>
    dsimp only
    rw [rrPoll]
    cases hok : t.nextAnswer.ok with
    | false =>
      rw [State.readStatus_eq_readFailed hok]
      exact ends rfl rfl (.failsAfter (hlog.plain (.readFailed ..)) (.inl rfl))
    | true =>
      rw [State.readStatus_eq_mirror hok]
      refine iteInduction (fun _ => goes rfl rfl (.fetch hw) (hlog.resamples _)) fun _ =>
        iteInduction (fun _ => ?_) fun _ => goes rfl rfl (.sleep t0 T hw) (hlog.resamples _)
      exact ends rfl rfl (.constructs _ (hlog.resamples _) rfl (.inl rfl))
  | sleep t0 T hw => exact goes rfl rfl (.poll t0 T hw) (hlog.plain (.sleep ..))
  | fetch hw =>
    dsimp only
    rw [rrFetch, State.fetchBlock]
    have hread := fun o => hlog.plain (.readBlock m Reg.algResult 8 o)
    cases blockOutcome t.nextAnswer 8 with
    | fail => exact ends rfl rfl (.failsAfter (hread _) (.inl rfl))
    | null => exact ends rfl rfl (.failsAfter (hread _) (.inr rfl))
    | bytes bs =>
      dsimp only
      cases blockOf? bs with
      | none => exact ends rfl rfl (.failsAfter (hread _) (.inr rfl))
      | some b => exact ends rfl rfl (.samples _ b (hread _) rfl rfl hw)

/-- What the events and the registers of an INIT with a valid mode say at its response. -/
theorem exec_init_end {m : ModeArgs} (hm : m.mode.toNat ≤ 4) {w : Bool} {s t : State}
    (h : exec (.init m w) s = .next t) :
    ∃ evs q, t.trace = s.trace ++ evs ∧ t.responses = s.responses ++ [q] ∧ InitEnd m w s.regs evs q.status t.regs := by
  have hreached : InitReached m w s t :=
    exec_keeps h (accept_initReached hm w s) fun _ hp _ => microStep_initReached hm hp
  obtain ⟨_, _, _, _, _, hat, _⟩ | ⟨evs, q, htrace, hresp, -, hend⟩ := hreached
  · rw [exec_eq_accept] at h
    cases h
    rw [complete_pc] at hat
    cases hat
  · exact ⟨evs, q, htrace, hresp, hend⟩

end Sys2Proof.Machine
end

section
/-! PROOF. The Boot to App transition (O36) and the statuses of INIT (O40). -/

namespace Sys2Proof.Machine

/-! ### The Boot to App transition (R163) -/

/-- An INIT that ended has written APP_START exactly if its first status read showed Boot. -/
theorem InitEnd.start {m : ModeArgs} {w : Bool} {r r' : Regs} {evs : List BusEvent} {st : Status}
    (h : InitEnd m w r evs st r') : appStarts evs = (firstShowsBoot evs).toNat := by
  have settled {written new} (hlog : InitLog m r written .settled evs new) :
      appStarts evs = (firstShowsBoot evs).toNat := by
    obtain ⟨-, hstarts⟩ := hlog.start
    exact hstarts
  cases h with
  | failsBefore stage hg hlog =>
    cases stage with
    | unread =>
      obtain ⟨hshown, hstarts⟩ := hlog.start
      rw [hstarts, firstShowsBoot_of_none hshown]
      rfl
    | due => exact absurd rfl hg
    | settled => exact settled hlog
  | failsAfter hlog => exact settled hlog
  | constructs new hlog => exact settled hlog
  | samples new b hlog => exact settled hlog

/-- Settles O36: the transition is the run from IN_APPSTART; that it runs once, and exactly for Boot, is
`InitEnd.start`. -/
theorem bootToAppRule : Obligations.BootToAppRule := by
  refine ⟨fun m w s hp hok => ?first, fun m w s t h => ?once, fun m w s hp => ?transition⟩
  case first =>
    rw [complete_of_pc hp, complete_inStatus, inStatus_ok m w hok]
    rfl
  case once =>
    suffices ∃ evs, t.trace = s.trace ++ evs ∧ appStarts evs = (firstShowsBoot evs).toNat by
      obtain ⟨evs, htrace, hstarts⟩ := this
      refine ⟨evs, htrace, hstarts.trans_le (Bool.toNat_le _), ?_⟩
      calc (∃ e ∈ evs, e.access? = some (true, 0xF4, 0))
        _ ↔ 0 < appStarts evs := by simp [appStarts, List.countP_pos_iff]
        _ ↔ firstShowsBoot evs = true := by cases hb : firstShowsBoot evs <;> simp [hstarts, hb]
        _ ↔ _ := by simp only [firstShowsBoot, statusesShown, Option.any_eq_true, bne_iff_ne]
    by_cases hm : m.mode.toNat ≤ 4
    · obtain ⟨evs, q, htrace, -, hend⟩ := exec_init_end hm h
      exact ⟨evs, htrace, hend.start⟩
    · cases (exec_init_invalid (not_le.mp hm) w s).symm.trans h
      exact ⟨[], (List.append_nil _).symm, rfl⟩
  case transition =>
    intro started settled seen after
    refine ⟨fun hfail => ?_, fun hok => ?_⟩
    · rw [complete_of_pc hp, complete_inAppstart, inAppstart_failed m w hfail, complete_respond]
    · have hrun : s.complete = (inRecheck m w settled).complete := by
        rw [complete_of_pc hp, complete_inAppstart, inAppstart_ok m w hok, complete_inSettle, inSettle,
          complete_inRecheck]
        rfl
      rw [hrun]
      refine ⟨?_, fun hfail => ?_, fun hok hboot => ?_, fun hok happ => ?_⟩
      · simp only [settled, started, State.event_now]
        omega
      · rw [inRecheck_failed m w hfail, complete_respond]
      · rw [inRecheck_ok m w hok]
        exact (congrArg State.complete (if_pos hboot)).trans (complete_respond _ _)
      · rw [inRecheck_ok m w hok]
        exact congrArg State.complete (if_neg (happ ▸ nofun))

/-! ### The statuses of INIT, and what each leaves (R21, R22, R161, R164) -/

section
variable {m : ModeArgs} {r r' : Regs} {written : Bool} {stage : StartStage} {evs : List BusEvent}
  (h : InitLog m r written stage evs r')
include h

/-- Until its end an INIT has a new handle's registers but for the mirror and the mode. -/
theorem InitLog.newHandle : r'.constructed = false ∧ r'.calHum = 25600 ∧ r'.calTemp = 12800 ∧
    r'.cacheValid = false ∧ r'.cacheBytes = r.cacheBytes ∧ r'.devmode = mirrorAfter evs := by
  rw [h.regs, initRegsAt, modeRegs]
  cases written with
  | false => exact ⟨rfl, rfl, rfl, rfl, rfl, rfl⟩
  | true =>
    rw [if_pos rfl]
    split <;> exact ⟨rfl, rfl, rfl, rfl, rfl, rfl⟩

/-- The mode and its timeout are those asked for once the mode write was acknowledged. -/
theorem InitLog.mode_of_ack (hack : modeAck m ∈ evs) :
    r'.measMode = m.mode ∧ r'.pollTimeoutValid = decide (m.mode ≠ 0) ∧
      r'.pollTimeout = (modeRegs r m.mode).pollTimeout := by
  rw [h.regs, initRegsAt, if_pos (h.ack.mp hack), modeRegs, modeRegs]
  by_cases h0 : m.mode = 0
  · rw [if_pos h0, if_pos h0, decide_eq_false (not_not.mpr h0), h0]
    exact ⟨rfl, rfl, rfl⟩
  · rw [if_neg h0, if_neg h0, decide_eq_true h0]
    exact ⟨rfl, rfl, rfl⟩

/-- Before that they are a new handle's. -/
theorem InitLog.mode_of_no_ack (hack : modeAck m ∉ evs) :
    r'.measMode = 0 ∧ r'.pollTimeoutValid = false ∧ r'.pollTimeout = r.pollTimeout := by
  rw [h.regs, initRegsAt, if_neg (mt h.ack.mpr hack)]
  exact ⟨rfl, rfl, rfl⟩

end

/-- What an INIT with the events `evs` leaves in `r'` whatever its status is: the calibration defaults, the old bytes
in a cache that is not valid, the last mirror, and the mode if its write was acknowledged. -/
structure InitLeaves (m : ModeArgs) (r : Regs) (evs : List BusEvent) (r' : Regs) : Prop where
  calHum : r'.calHum = 25600
  calTemp : r'.calTemp = 12800
  cacheBytes : r'.cacheValid = false → r'.cacheBytes = r.cacheBytes
  devmode : r'.devmode = mirrorAfter evs
  acked : modeAck m ∈ evs → r'.measMode = m.mode ∧ r'.pollTimeoutValid = decide (m.mode ≠ 0) ∧
    r'.pollTimeout = (modeRegs r m.mode).pollTimeout
  notAcked : modeAck m ∉ evs → r'.measMode = 0 ∧ r'.pollTimeoutValid = false ∧ r'.pollTimeout = r.pollTimeout

theorem InitLog.leaves {m : ModeArgs} {r r' : Regs} {written : Bool} {stage : StartStage} {evs : List BusEvent}
    (h : InitLog m r written stage evs r') : InitLeaves m r evs r' := by
  obtain ⟨-, hhum, htemp, -, hbytes, hmirror⟩ := h.newHandle
  exact ⟨hhum, htemp, fun _ => hbytes, hmirror, h.mode_of_ack, h.mode_of_no_ack⟩

theorem InitLeaves.construct {m : ModeArgs} {r r' : Regs} {evs : List BusEvent} (h : InitLeaves m r evs r') :
    InitLeaves m r evs r'.construct :=
  ⟨h.calHum, h.calTemp, h.cacheBytes, h.devmode, h.acked, h.notAcked⟩

theorem InitLeaves.fillCache {m : ModeArgs} {r r' : Regs} {evs : List BusEvent} (h : InitLeaves m r evs r')
    (b : ResultBlock) : InitLeaves m r evs (r'.fillCache b) :=
  ⟨h.calHum, h.calTemp, nofun, h.devmode, h.acked, h.notAcked⟩

section
variable {m : ModeArgs} {w : Bool} {r r' : Regs} {evs : List BusEvent} {st : Status} (h : InitEnd m w r evs st r')
include h

theorem InitEnd.leaves : InitLeaves m r evs r' := by
  cases h with
  | failsBefore stage _ hlog => exact hlog.leaves
  | failsAfter hlog => exact hlog.leaves
  | constructs new hlog hr => exact hr ▸ hlog.leaves.construct
  | samples new b hlog hr => exact hr ▸ (hlog.leaves.fillCache b).construct

/-- What the status of an INIT says of its handle, its cache, its mirror and its mode write. -/
theorem InitEnd.status :
    st ∈ [Status.ok, .timeout, .unexpectedHardwareId, .modeTransitionFailed, .transportError, .readFailed] ∧
    (r'.constructed = true ↔ st = .ok ∨ st = .timeout) ∧
    (r'.cacheValid = true ↔ st = .ok ∧ w = true ∧ m.mode ≠ 0) ∧
    (st = .modeTransitionFailed → r'.devmode = .boot) ∧
    (st ∈ [Status.ok, .timeout, .readFailed] → modeAck m ∈ evs) ∧
    (st ∈ [Status.unexpectedHardwareId, .modeTransitionFailed] → modeAck m ∉ evs) := by
  have hwait : (w && m.mode != 0) = true ↔ w = true ∧ m.mode ≠ 0 := by rw [Bool.and_eq_true, bne_iff_ne]
  cases h with
  | failsBefore stage _ hlog hst =>
    obtain ⟨hc, -, -, hv, -⟩ := hlog.newHandle
    have hack : modeAck m ∉ evs := mt hlog.ack.mp nofun
    obtain rfl | rfl | ⟨rfl, hboot⟩ := hst <;> simp_all
  | failsAfter hlog hst =>
    obtain ⟨hc, -, -, hv, -⟩ := hlog.newHandle
    have hack := hlog.ack.mpr rfl
    obtain rfl | rfl := hst <;> simp_all
  | constructs new hlog hr hst =>
    obtain ⟨-, -, -, hv, -⟩ := hlog.newHandle
    have hack := hlog.ack.mpr rfl
    obtain rfl | ⟨rfl, hw⟩ := hst
    · simp_all
    · rw [← Bool.not_eq_true, hwait] at hw
      simp_all
  | samples new b hlog hr hst hw =>
    have hack := hlog.ack.mpr rfl
    rw [hwait] at hw
    simp_all

end

/-- Settles O40: `exec_init_end`, and what the end says of the status (`InitEnd.status`) and of the registers
(`InitEnd.leaves`). -/
theorem initOutcomes : Obligations.InitOutcomes := by
  intro m w s t r h hr
  by_cases hm : m.mode.toNat ≤ 4
  case neg =>
    cases (exec_init_invalid (not_le.mp hm) w s).symm.trans h
    obtain rfl := List.singleton_inj.mp (List.append_cancel_left hr)
    exact ⟨by simp, fun _ => ⟨rfl, rfl⟩, fun hn => absurd rfl hn⟩
  obtain ⟨evs, q, htrace, hresp, hend⟩ := exec_init_end hm h
  obtain rfl := List.singleton_inj.mp (List.append_cancel_left (hr.symm.trans hresp))
  obtain ⟨hst, hconstructed, hvalid, hboot, hack, hnoack⟩ := hend.status
  obtain ⟨hhum, htemp, hbytes, hmirror, hmode, hnomode⟩ := hend.leaves
  refine ⟨?_, fun hi => ?_, fun _ => ⟨evs, htrace, hconstructed, hhum, htemp, hvalid, hbytes, hmirror, hboot, hack,
    hnoack, hmode, hnomode⟩⟩
  · revert hst
    generalize r.status = st
    cases st <;> decide
  · rw [hi] at hst
    exact absurd hst (by decide)

end Sys2Proof.Machine
end

section
/-! PROOF. The parse of a result block, and what each user of the poll loop and of the fetch answers (O27, O28). -/

namespace Sys2Proof.Machine

/-! ### The eight bytes (R197, R198) -/

theorem ResultBlock.toNat_eco2 (b : ResultBlock) : b.eco2.toNat = b.b0.toNat * 256 + b.b1.toNat :=
  toNat_append_eq_add _ _

theorem ResultBlock.toNat_etvoc (b : ResultBlock) : b.etvoc.toNat = b.b2.toNat * 256 + b.b3.toNat :=
  toNat_append_eq_add _ _

theorem ResultBlock.toNat_raw (b : ResultBlock) : b.raw.toNat = b.b6.toNat * 256 + b.b7.toNat :=
  toNat_append_eq_add _ _

theorem ResultBlock.toNat_current (b : ResultBlock) : b.current.toNat = b.raw.toNat / 2 ^ 10 := by
  have hraw : b.raw.toNat < 2 ^ 16 := b.raw.isLt
  rw [current, BitVec.extractLsb'_toNat, Nat.shiftRight_eq_div_pow]
  omega

theorem ResultBlock.toNat_adc (b : ResultBlock) : b.adc.toNat = b.raw.toNat % 2 ^ 10 := by
  rw [adc, BitVec.extractLsb'_toNat, Nat.shiftRight_zero]

/-- Settles O27. -/
theorem resultBlockParses : Obligations.ResultBlockParses := fun b =>
  ⟨b.toNat_eco2, b.toNat_etvoc, rfl, rfl, b.toNat_raw, b.toNat_current, b.toNat_adc⟩

/-- The reference of 1.65 V over 1023 steps is 11/6820 V a step (R198). -/
theorem ResultBlock.volts_eq (b : ResultBlock) : b.volts = (b.adc.toNat : ℚ) * 11 / 6820 := by
  rw [volts, Config.adcVref, Config.adcFull]
  ring

/-- Settles O28: `ResultBlock.volts_eq`, at the two ends of the scale. -/
theorem adcConversion : Obligations.AdcConversion := by
  refine fun b => ⟨b.volts_eq, fun hfull => ?_, fun hzero => ?_⟩
  · have hadc : b.adc.toNat = 1023 := congrArg BitVec.toNat hfull
    norm_num [b.volts_eq, hadc]
  · have hadc : b.adc.toNat = 0 := congrArg BitVec.toNat hzero
    norm_num [b.volts_eq, hadc]

/-! ### The ends of a poll loop and of a fetch (R102, R194, R196) -/

theorem ResultUser.finish_eq (u : ResultUser) (r : Regs) :
    u.finish r = { r with constructed := if u = .init then true else r.constructed } := by
  cases u <;> rfl

/-- Only INIT constructs a handle. -/
theorem ResultUser.finish_of_ne_init {u : ResultUser} (h : u ≠ .init) (r : Regs) : u.finish r = r := by
  rw [u.finish_eq, if_neg h]

theorem deliver_eq_blockResponse (u : ResultUser) (b : ResultBlock) (s : State) :
    deliver u b s = (s.withRegs (u.finish s.regs)).respond (blockResponse u b) := by
  cases u with
  | init => rfl
  | result =>
    simp only [deliver, blockResponse, BitVec.append_assoc, BitVec.cast_eq]
    rfl
  | eco2 =>
    rw [deliver, blockResponse, ← b.toNat_eco2, BitVec.ofNat_toNat]
    rfl
  | etvoc =>
    rw [deliver, blockResponse, ← b.toNat_etvoc, BitVec.ofNat_toNat]
    rfl

theorem blockResponse_status (u : ResultUser) (b : ResultBlock) : (blockResponse u b).status = .ok := by
  cases u <;> rfl

theorem deadlinePassed_eq_timeout (u : ResultUser) (s : State) :
    deadlinePassed u s = (s.withRegs (u.finish s.regs)).respond (bare .timeout (userOpcode u).byte) := by
  cases u <;> rfl

end Sys2Proof.Machine
end

section
/-! PROOF. The fetch: what the block read brings, and what it leads to (O46). -/

namespace Sys2Proof.Machine

/-! ### What the block read brings (R53) -/

theorem blockOutcome_fail {a : Answer} (h : a.ok = false) (n : Nat) : blockOutcome a n = .fail :=
  if_neg (by simp [h])

theorem blockOutcome_null {a : Answer} (h : a.ok = true) (hb : a.block = none) (n : Nat) :
    blockOutcome a n = .null := by
  rw [blockOutcome, if_pos h, hb]

/-- A block of no more bytes than were asked for comes as it is. -/
theorem blockOutcome_bytes {a : Answer} {bs : List Byte} {n : Nat} (h : a.ok = true) (hb : a.block = some bs)
    (hn : bs.length ≤ n) : blockOutcome a n = .bytes bs := by
  rw [blockOutcome, if_pos h, hb]
  exact congrArg BlockOutcome.bytes (List.take_of_length_le hn)

/-- A short block makes no result block (R196). -/
theorem blockOf?_eq_none {bs : List Byte} (h : bs.length < 8) : blockOf? bs = none := by
  cases hb : blockOf? bs with
  | none => rfl
  | some b =>
    rw [blockOf?_some hb] at h
    exact absurd h (by simp)

/-! ### What it leads to (R196) -/

section
variable (u : ResultUser) {s : State}

theorem rrFetch_of_fail (h : blockOutcome s.nextAnswer 8 = .fail) :
    rrFetch u s = (s.readBlock .fail).respond (transportFailure (userOpcode u).byte false 0x02) := by
  rw [rrFetch, State.fetchBlock, h, ← transportError_response]
  rfl

theorem rrFetch_of_null (h : blockOutcome s.nextAnswer 8 = .null) :
    rrFetch u s = (s.readBlock .null).respond (bare .readFailed (userOpcode u).byte) := by
  rw [rrFetch, State.fetchBlock, h]
  rfl

theorem rrFetch_of_short {bs : List Byte} (h : blockOutcome s.nextAnswer 8 = .bytes bs) (hb : blockOf? bs = none) :
    rrFetch u s =
      (s.readBlock (.bytes bs)).respond ⟨.readFailed, (userOpcode u).byte, BitVec.ofNat 16 bs.length, 0, 0⟩ := by
  rw [rrFetch, State.fetchBlock, h]
  dsimp only
  rw [hb]
  rfl

theorem rrFetch_of_block {bs : List Byte} {b : ResultBlock} (h : blockOutcome s.nextAnswer 8 = .bytes bs)
    (hb : blockOf? bs = some b) :
    rrFetch u s = ((s.readBlock (.bytes bs)).withRegs (u.finish (s.regs.fillCache b))).respond
      (blockResponse u b) := by
  rw [rrFetch, State.fetchBlock, h]
  dsimp only
  rw [hb]
  exact deliver_eq_blockResponse u b _

/-- What a fetch from `s` to `t` is: one block read, and then either a failure with the registers as they were, or
the filled cache and OK. -/
inductive FetchOutcome (u : ResultUser) (s t : State) : Prop
  | fails (o : BlockOutcome) (q : Response) (ht : t = (s.readBlock o).respond q)
      (hq : q.status = .transportError ∨ q.status = .readFailed)
  | fills (o : BlockOutcome) (b : ResultBlock)
      (ht : t = ((s.readBlock o).withRegs (u.finish (s.regs.fillCache b))).respond (blockResponse u b))

theorem rrFetch_cases : FetchOutcome u s (rrFetch u s) := by
  cases ho : blockOutcome s.nextAnswer 8 with
  | fail => exact .fails _ _ (rrFetch_of_fail u ho) (.inl rfl)
  | null => exact .fails _ _ (rrFetch_of_null u ho) (.inr rfl)
  | bytes bs =>
    cases hb : blockOf? bs with
    | none => exact .fails _ _ (rrFetch_of_short u ho hb) (.inr rfl)
    | some b => exact .fills _ b (rrFetch_of_block u ho hb)

/-- The fetch ends its command, and not with Timeout. -/
theorem rrFetch_answers :
    ∃ o r q, rrFetch u s = ((s.readBlock o).withRegs r).respond q ∧ q.status ≠ .timeout := by
  obtain ⟨o, q, ht, hq⟩ | ⟨o, b, ht⟩ := rrFetch_cases u (s := s)
  · refine ⟨o, s.regs, q, ht, ?_⟩
    obtain hq | hq := hq <;> simp [hq]
  · exact ⟨o, _, _, ht, by simp [blockResponse_status]⟩

theorem complete_goto_rrFetch (s : State) : (s.goto (.rrFetch u)).complete = rrFetch u s := by
  obtain ⟨o, r, q, ht, -⟩ := rrFetch_answers u (s := s)
  rw [complete_rrFetch, ht, complete_respond]

end

/-- Settles O46: the four outcomes of `rrFetch`. -/
theorem fetchRule : Obligations.FetchRule := by
  intro u s hp op
  rw [complete_of_pc hp, complete_goto_rrFetch]
  refine ⟨fun hfail => ?failed, fun hok hb => ?null, fun bs hok hb hlen => ?short,
    fun b0 b1 b2 b3 b4 b5 b6 b7 hok hb => ?full⟩
  case failed => exact rrFetch_of_fail u (blockOutcome_fail hfail 8)
  case null => exact rrFetch_of_null u (blockOutcome_null hok hb 8)
  case short => exact rrFetch_of_short u (blockOutcome_bytes hok hb hlen.le) (blockOf?_eq_none hlen)
  case full =>
    rw [rrFetch_of_block u (blockOutcome_bytes hok hb le_rfl) rfl, u.finish_eq]
    rfl

end Sys2Proof.Machine
end

section
/-! PROOF. POLLRDY, and the three result reads from their acceptance to the poll loop or the fetch (O44, O45, O47,
O48). -/

namespace Sys2Proof.Machine

/-! ### POLLRDY (R191) -/

theorem State.withHandle_unconstructed {s : State} (h : s.regs.constructed = false) (op : Opcode) (k : State) :
    s.withHandle op k = s.respond (bare .notConstructed op.byte) := if_neg (by simp [h])

/-- R191: POLLRDY on a handle is its one status read. -/
theorem exec_pollrdy {s : State} (hc : s.regs.constructed = true) : exec .pollrdy s = .next (prRead s) := by
  have hend : (prRead s).complete = prRead s :=
    State.readStatus_rule (P := fun t => t.complete = t) (fun _ _ => complete_respond _ _) fun _ _ =>
      complete_respond _ _
  rw [exec_eq_accept, State.accept, startPollrdy, State.withHandle_constructed hc, complete_prRead, hend]

theorem ofBool_setWidth_word (c : Bool) : (BitVec.ofBool c).setWidth 32 = if c then (1 : Word) else 0 := by
  cases c <;> rfl

/-- Settles O44: no handle, or `exec_pollrdy` with either outcome of the read. -/
theorem pollrdyRule : Obligations.PollrdyRule := by
  intro s
  refine ⟨fun hc => ?_, fun hc hfail => ?_, fun hc hok => ?_⟩
  · rw [exec_eq_accept, State.accept, startPollrdy, State.withHandle_unconstructed hc, complete_respond]
    rfl
  · rw [exec_pollrdy hc, prRead, State.readStatus_eq_readFailed hfail]
    rfl
  · rw [exec_pollrdy hc, prRead, State.readStatus_eq_mirror hok, ofBool_setWidth_word]
    rfl

/-! ### The acceptance of a result read (R192, R193, R195) -/

/-- The three result reads are one acceptance, for three users. -/
theorem accept_resultRead {i : Instr} (h : i.opcode ∈ [Opcode.rdresult, .rdeco2, .rdetvoc]) :
    ∃ u w, u ≠ .init ∧ userOpcode u = i.opcode ∧ ∀ s : State, s.accept i = startResult u w s := by
  cases i with
  | rdresult w => exact ⟨.result, w, nofun, rfl, fun _ => rfl⟩
  | rdeco2 w => exact ⟨.eco2, w, nofun, rfl, fun _ => rfl⟩
  | rdetvoc w => exact ⟨.etvoc, w, nofun, rfl, fun _ => rfl⟩
  | _ => exact absurd h (by simp [Instr.opcode])

theorem resultAvailable_iff (r : Regs) : resultAvailable r = true ↔ r.devmode = .app ∧ r.measMode ≠ 0 := by
  simp [resultAvailable]

theorem startResult_noData {s : State} (hc : s.regs.constructed = true)
    (h : s.regs.devmode ≠ .app ∨ s.regs.measMode = 0) (u : ResultUser) (w : WaitArg) :
    startResult u w s = s.respond (bare .noData (userOpcode u).byte) := by
  have hno : ¬resultAvailable s.regs = true := by
    rw [resultAvailable_iff]
    tauto
  exact (State.withHandle_constructed hc _ _).trans (if_neg hno)

/-- No outcome of the acceptance changes a register. -/
theorem startResult_regs (u : ResultUser) (w : WaitArg) (s : State) : (startResult u w s).regs = s.regs := by
  refine State.withHandle_rule (P := fun t => t.regs = s.regs) (fun _ => rfl) fun _ =>
    iteInduction (motive := fun t : State => t.regs = s.regs) (fun _ => ?_) fun _ => rfl
  cases w <;> rfl

/-- Settles O45: `startResult_noData`, for each of the three. -/
theorem resultReadsNeedAppAndMode : Obligations.ResultReadsNeedAppAndMode := by
  intro i s hi hc hno
  obtain ⟨u, w, -, hop, haccept⟩ := accept_resultRead hi
  rw [exec_eq_accept, haccept, startResult_noData hc hno, complete_respond, hop]

section
variable {s : State} (hc : s.regs.constructed = true) (ha : s.regs.devmode = .app) (hm : s.regs.measMode ≠ 0)
include hc ha hm

theorem startResult_immediate (u : ResultUser) : startResult u .immediate s = s.goto (.rrFetch u) := by
  rw [startResult, State.withHandle_constructed hc, if_pos ((resultAvailable_iff _).mpr ⟨ha, hm⟩)]

theorem startResult_derived (u : ResultUser) :
    startResult u .derived s = s.goto (.rrPoll u s.now s.regs.pollTimeout.toNat) := by
  rw [startResult, State.withHandle_constructed hc, if_pos ((resultAvailable_iff _).mpr ⟨ha, hm⟩)]
  rfl

theorem startResult_explicit (u : ResultUser) (ms : Word) :
    startResult u (.explicit ms) s = s.goto (.rrPoll u s.now ms.toNat) := by
  rw [startResult, State.withHandle_constructed hc, if_pos ((resultAvailable_iff _).mpr ⟨ha, hm⟩)]
  rfl

/-- R192: with `wait = 0` the three result reads are the fetch: what it leads to, they lead to. -/
theorem exec_immediate {result : ResultUser → State} (h : ∀ u, rrFetch u s = result u) :
    exec (.rdresult .immediate) s = .next (result .result) ∧ exec (.rdeco2 .immediate) s = .next (result .eco2) ∧
      exec (.rdetvoc .immediate) s = .next (result .etvoc) := by
  have hrun (u : ResultUser) : (startResult u .immediate s).complete = result u := by
    rw [startResult_immediate hc ha hm, complete_goto_rrFetch, h]
  exact ⟨congrArg _ (hrun .result), congrArg _ (hrun .eco2), congrArg _ (hrun .etvoc)⟩

end

/-- Settles O47: `exec_immediate` with each outcome of the fetch. -/
theorem immediateReadsReturnBlock : Obligations.ImmediateReadsReturnBlock := by
  intro s hc ha hm
  refine ⟨?fetch, fun hfail => ?failed, fun hok hb => ?null, fun bs hok hb hlen => ?short,
    fun b0 b1 b2 b3 b4 b5 b6 b7 hok hb => ?full⟩
  case fetch => exact exec_immediate hc ha hm fun u => (complete_goto_rrFetch u s).symm
  case failed => exact exec_immediate hc ha hm (rrFetch_of_fail · (blockOutcome_fail hfail 8))
  case null => exact exec_immediate hc ha hm (rrFetch_of_null · (blockOutcome_null hok hb 8))
  case short =>
    exact exec_immediate hc ha hm (rrFetch_of_short · (blockOutcome_bytes hok hb hlen.le) (blockOf?_eq_none hlen))
  case full => exact exec_immediate hc ha hm (rrFetch_of_block · (blockOutcome_bytes hok hb le_rfl) rfl)

/-- Settles O48: the acceptance with either timeout. -/
theorem waitingReadsPoll : Obligations.WaitingReadsPoll := by
  intro s ms hc ha hm polling
  have derived (u) : (startResult u .derived s).complete = (polling u s.regs.pollTimeout).complete :=
    congrArg _ (startResult_derived hc ha hm u)
  have explicit (u) : (startResult u (.explicit ms) s).complete = (polling u ms).complete :=
    congrArg _ (startResult_explicit hc ha hm u ms)
  exact ⟨congrArg _ (derived _), congrArg _ (explicit _), congrArg _ (derived _), congrArg _ (explicit _),
    congrArg _ (derived _), congrArg _ (explicit _)⟩

end Sys2Proof.Machine
end

section
/-! PROOF. The poll loop, turn by turn and to its end (O49, O50). -/

namespace Sys2Proof.Machine

/-- The state after a done status read of the sequencer, the mode mirror refreshed (R22, R194). -/
def State.polled (s : State) : State := (s.sawByte 0x00).withRegs (s.regs.mirror s.nextAnswer.b0)

/-! ### One turn (R194) -/

section
variable (u : ResultUser) (t0 T : Nat) {s : State}

theorem rrPoll_failed (hfail : s.nextAnswer.ok = false) :
    rrPoll u t0 T s = (s.readFailed 0x00 .w8).respond (transportFailure (userOpcode u).byte false 0x00) :=
  State.readStatus_eq_readFailed hfail _ _

variable (hok : s.nextAnswer.ok = true)
include hok

theorem rrPoll_ready (hready : dataReady s.nextAnswer.b0 = true) :
    rrPoll u t0 T s = s.polled.goto (.rrFetch u) :=
  (State.readStatus_eq_mirror hok _ _).trans (if_pos hready)

variable (hnot : dataReady s.nextAnswer.b0 = false)
include hnot

theorem rrPoll_not_ready :
    rrPoll u t0 T s =
      if s.polled.now - t0 ≥ T then deadlinePassed u s.polled else s.polled.goto (.rrSleep u t0 T) :=
  (State.readStatus_eq_mirror hok _ _).trans (if_neg (by simp [hnot]))

theorem rrPoll_late (hlate : s.polled.now - t0 ≥ T) :
    rrPoll u t0 T s =
      (s.polled.withRegs (u.finish s.polled.regs)).respond (bare .timeout (userOpcode u).byte) := by
  rw [rrPoll_not_ready u t0 T hok hnot, if_pos hlate, deadlinePassed_eq_timeout]

/-- Before the deadline the loop sleeps and turns again. -/
theorem complete_rrPoll_sleep (hearly : s.polled.now - t0 < T) :
    (rrPoll u t0 T s).complete = ((s.polled.event (.sleep 250) 250).goto (.rrPoll u t0 T)).complete := by
  rw [rrPoll_not_ready u t0 T hok hnot, if_neg (not_le.mpr hearly), complete_rrSleep]
  rfl

end

/-- Settles O49: the four ways a turn goes. -/
theorem pollLoopTurn : Obligations.PollLoopTurn := by
  refine ⟨fun u T s => s.startPoll_eq u T, fun u t0 T s hp => ?_⟩
  rw [complete_of_pc hp, complete_rrPoll]
  refine ⟨fun hfail => ?_, fun hok hready => ?_, fun hok hnot hlate => ?_, complete_rrPoll_sleep u t0 T⟩
  · rw [rrPoll_failed u t0 T hfail, complete_respond]
  · exact congrArg _ (rrPoll_ready u t0 T hok hready)
  · rw [rrPoll_late u t0 T hok hnot hlate, complete_respond, u.finish_eq]
    rfl

/-! ### The whole loop (R204) -/

/-- The run from `s` to `t` answers after at most `n` sleeps and one status read more than that, and it answers
Timeout no earlier than `deadline`. -/
def PollEnds (n deadline : Nat) (s t : State) : Prop :=
  ∃ evs r, t.trace = s.trace ++ evs ∧ t.responses = s.responses ++ [r] ∧
    evs.countP BusEvent.isStatusRead ≤ n + 1 ∧ evs.countP BusEvent.isSleep ≤ n ∧
    (r.status = .timeout → deadline ≤ t.now)

/-- A loop whose status read fails ends with it. -/
theorem pollEnds_of_failed (n deadline : Nat) (s : State) (op : Byte) :
    PollEnds n deadline s ((s.readFailed 0x00 .w8).respond (transportFailure op false 0x00)) :=
  ⟨[.memRead Reg.status .w8 none], _, rfl, rfl, by simp [BusEvent.isStatusRead],
    by simp [BusEvent.isSleep], nofun⟩

/-- A loop whose status read shows a sample ends with the fetch, which does not time out. -/
theorem pollEnds_of_fetch (n deadline : Nat) (u : ResultUser) (s : State) :
    PollEnds n deadline s (rrFetch u s.polled) := by
  obtain ⟨o, r, q, ht, hq⟩ := rrFetch_answers u (s := s.polled)
  rw [ht]
  refine ⟨[statusRead s.nextAnswer.b0, .memReadBlock 0x02 8 o], q, List.append_assoc .., rfl, ?_, ?_,
    fun h => absurd h hq⟩
  · simp [statusRead, BusEvent.isStatusRead, Reg.status]
  · simp [statusRead, BusEvent.isSleep]

/-- A loop ends with Timeout where its deadline has passed. -/
theorem pollEnds_of_late (n : Nat) {deadline : Nat} {s : State} (h : deadline ≤ s.polled.now) (r : Regs)
    (q : Response) : PollEnds n deadline s ((s.polled.withRegs r).respond q) :=
  ⟨[statusRead s.nextAnswer.b0], q, rfl, rfl, by simp [statusRead, BusEvent.isStatusRead, Reg.status],
    by simp [statusRead, BusEvent.isSleep], fun _ => h⟩

/-- A turn that sleeps is one status read and one sleep. -/
theorem pollEnds_of_turn {n deadline : Nat} {s t : State}
    (h : PollEnds n deadline (s.polled.event (.sleep 250) 250) t) : PollEnds (n + 1) deadline s t := by
  obtain ⟨evs, r, htrace, hresp, hreads, hsleeps, htime⟩ := h
  refine ⟨statusRead s.nextAnswer.b0 :: .sleep 250 :: evs, r, ?_, hresp, ?_, ?_, htime⟩
  · rw [htrace]
    simp [State.polled, State.sawByte, statusRead]
  · simpa [statusRead, BusEvent.isStatusRead, Reg.status] using hreads
  · simpa [List.countP_cons, statusRead, BusEvent.isSleep] using hsleeps

theorem State.now_le_polled (s : State) : s.now ≤ s.polled.now := Nat.le_add_right _ _

/-- A loop ends within `n` sleeps if it does so from a turn that sleeps. -/
theorem rrPoll_ends_of_sleep (u : ResultUser) {t0 T n : Nat} {s : State} (h0 : t0 ≤ s.now)
    (hsleep : s.polled.now - t0 < T →
      PollEnds n (t0 + T) s ((s.polled.event (.sleep 250) 250).goto (.rrPoll u t0 T)).complete) :
    PollEnds n (t0 + T) s (rrPoll u t0 T s).complete := by
  have hnow := s.now_le_polled
  cases hok : s.nextAnswer.ok with
  | false =>
    rw [rrPoll_failed u t0 T hok, complete_respond]
    exact pollEnds_of_failed _ _ _ _
  | true =>
    cases hready : dataReady s.nextAnswer.b0 with
    | true =>
      rw [rrPoll_ready u t0 T hok hready, complete_goto_rrFetch]
      exact pollEnds_of_fetch _ _ u s
    | false =>
      by_cases hlate : s.polled.now - t0 ≥ T
      · rw [rrPoll_late u t0 T hok hready hlate, complete_respond]
        exact pollEnds_of_late n (by omega) _ _
      · rw [complete_rrPoll_sleep u t0 T hok hready (not_le.mp hlate)]
        exact hsleep (not_le.mp hlate)

/-- A loop whose deadline is at most `n` sleeps away ends within them: every turn that sleeps brings it 250 ms
nearer, and once it has passed no turn sleeps. -/
theorem rrPoll_ends (u : ResultUser) {t0 T n : Nat} {s : State} (h0 : t0 ≤ s.now)
    (hn : t0 + T ≤ s.now + 250 * n) : PollEnds n (t0 + T) s (rrPoll u t0 T s).complete := by
  induction n generalizing s with
  | zero =>
    have hnow := s.now_le_polled
    exact rrPoll_ends_of_sleep u h0 fun hearly => by omega
  | succ n ih =>
    have hnow : s.now + 250 ≤ (s.polled.event (.sleep 250) 250).now :=
      (Nat.add_le_add_right s.now_le_polled 250).trans (Nat.le_add_right _ _)
    refine rrPoll_ends_of_sleep u h0 fun _ => pollEnds_of_turn ?_
    rw [complete_rrPoll]
    exact ih (by omega) (by omega)

/-- Settles O50: the deadline is `⌈T / 250⌉` sleeps away at the start (`rrPoll_ends`). -/
theorem pollLoopBounded : Obligations.PollLoopBounded := by
  intro u T s hp
  obtain ⟨evs, r, htrace, hresp, hreads, hsleeps, htime⟩ : PollEnds ((T + 249) / 250) (s.now + T) s s.complete := by
    rw [complete_of_pc hp, complete_rrPoll]
    exact rrPoll_ends u le_rfl (by omega)
  exact ⟨evs, r, complete_pc s, htrace, hresp, hreads, hsleeps, htime⟩

end Sys2Proof.Machine
end

section
/-! PROOF. A result read that is not OK (O51). -/

namespace Sys2Proof.Machine

/-- A result read that started with the registers `r` has them still, but for the mode mirror, or it has answered
with OK (R192). -/
def State.ReadFrom (s : State) (r : Regs) : Prop :=
  (∃ d, s.regs = { r with devmode := d }) ∨ (s.pc = .idle ∧ ∃ q, s.responses.getLast? = some q ∧ q.status = .ok)

theorem userOpcode_ne_init {u : ResultUser} (h : u ≠ .init) : userOpcode u ≠ .init := by
  cases u
  case init => exact absurd rfl h
  all_goals decide

theorem userOpcode_ne_setmode (u : ResultUser) : userOpcode u ≠ .setmode := by cases u <;> decide

/-- Only the fetch, where it fills the cache and answers with OK, does more than refresh the mirror. -/
theorem microStep_readFrom {s : State} {r : Regs} {u : ResultUser} (hu : u ≠ .init)
    (ho : s.pc.opcode? = some (userOpcode u)) (hp : s.pc ≠ .idle) (hs : s.ReadFrom r) :
    (microStep s).ReadFrom r := by
  obtain ⟨d, hd⟩ := hs.resolve_right fun ⟨hi, _⟩ => hp hi
  by_cases hf : ∃ v, s.pc = .rrFetch v
  case pos =>
    obtain ⟨v, hv⟩ := hf
    have hstep : microStep s = rrFetch v s := by simp only [microStep, hv]
    rw [hstep]
    obtain ⟨o, q, ht, -⟩ | ⟨o, b, ht⟩ := rrFetch_cases v (s := s) <;> rw [ht]
    · exact .inl ⟨d, hd⟩
    · exact .inr ⟨rfl, _, List.getLast?_concat, blockResponse_status v b⟩
  have hm (m w) : s.pc ≠ .inSetmode m w := fun h => by
    rw [h] at ho
    exact userOpcode_ne_init hu (Option.some.inj ho).symm
  refine .inl ?_
  obtain hr | ⟨st, -, hr⟩ | ⟨v, t0, T, st, hv, -, hr⟩ | ⟨m, hw, -, -⟩ | ⟨v, b, hv, -, -⟩ := microStep_updates hm
  case keeps => exact ⟨d, hr.trans hd⟩
  case samples => exact ⟨deviceModeOf st, by rw [hr, hd]; rfl⟩
  case timesOut =>
    have hv' : v ≠ .init := by
      rintro rfl
      rw [hv] at ho
      exact userOpcode_ne_init hu (Option.some.inj ho).symm
    exact ⟨deviceModeOf st, by rw [hr, ResultUser.finish_of_ne_init hv', hd]; rfl⟩
  case setsMode =>
    rw [hw] at ho
    exact absurd (Option.some.inj ho).symm (userOpcode_ne_setmode u)
  case fills => exact absurd ⟨v, hv⟩ hf

/-- Settles O51: a result read has its registers but for the mirror, or has answered with OK, at its acceptance and
after every micro-step. -/
theorem failedReadsKeepCache : Obligations.FailedReadsKeepCache := by
  intro i s t q hi h hq hst
  obtain ⟨u, w, hu, hop, haccept⟩ := accept_resultRead hi
  have hstart : (s.accept i).ReadFrom s.regs := .inl ⟨s.regs.devmode, by rw [haccept, startResult_regs]⟩
  have hfrom : t.ReadFrom s.regs :=
    exec_keeps (P := (State.ReadFrom · s.regs)) h hstart fun _ hp ho =>
      microStep_readFrom hu (ho.trans (congrArg some hop.symm)) hp
  obtain ⟨d, hd⟩ | ⟨-, q', hq', hok⟩ := hfrom
  · rw [hd]
  · rw [hq, List.getLast?_concat] at hq'
    cases hq'
    exact absurd hok hst

end Sys2Proof.Machine
end

section
/-! PROOF. The calibration arithmetic and SETCAL (O52, O53). -/

namespace Sys2Proof.Machine

/-! ### The clamps and the packed word (R231, R232) -/

theorem calibrationHumidity_eq (hum : Option Word) (r : Regs) :
    calibrationHumidity hum r = max 0 (min 51200 (hum.getD r.calHum).toInt) := by
  unfold calibrationHumidity clamp Config.humMaxQ9
  split
  · omega
  · split <;> omega

theorem calibrationTemperature_eq (temp : Option Word) (r : Regs) :
    calibrationTemperature temp r = max (-12800) (temp.getD r.calTemp).toInt := max_comm _ _

/-- Settles O53: the two clamps, at the values D0 lists. -/
theorem calibrationEncodings : Obligations.CalibrationEncodings := by
  intro r
  simp only [calibrationHumidity_eq, calibrationTemperature_eq, Option.getD_some]
  decide

/-- A half-word fills the bits a shift by 16 has cleared. -/
theorem shiftLeft_or_eq_add {y : Word} (hy : y.toNat < 2 ^ 16) (x : Word) : x <<< 16 ||| y = x <<< 16 + y := by
  refine (BitVec.add_eq_or_of_and_eq_zero _ _ (BitVec.eq_of_getLsbD_eq fun i hi => ?_)).symm
  by_cases h : i < 16
  · simp [h]
  · have hbit : y.getLsbD i = false :=
      Nat.testBit_lt_two_pow (hy.trans_le (Nat.pow_le_pow_right (by decide) (not_lt.mp h)))
    simp [hbit]

/-- R231: where the raw temperature fits its half, the packed word is the sum of the two halves. -/
theorem envWord_eq (h : Int) {t : Int} (h0 : 0 ≤ t + 12800) (hfit : t + 12800 ≤ 65535) :
    envWord h t = BitVec.ofInt 32 (h * 65536 + (t + 12800)) := by
  have hlt : (BitVec.ofInt 32 (t + 12800)).toNat < 2 ^ 16 := by
    rw [BitVec.toNat_ofInt]
    omega
  rw [envWord, rawTemperature, Config.tempOffsetQ9, shiftLeft_or_eq_add hlt, BitVec.ofInt_add (h * 65536),
    BitVec.ofInt_mul, BitVec.shiftLeft_eq_mul_twoPow]
  rfl

/-! ### SETCAL (R231, R233) -/

/-- A write is the command's last transaction where what follows it is the response. -/
theorem State.complete_memWrite {k : State → State} (hk : ∀ u, (k u).complete = k u) (s : State) (op : Opcode)
    (a : Byte) (w : Width) (v : Word) : (s.memWrite op a w v k).complete = s.memWrite op a w v k :=
  memWrite_rule (P := fun t => t.complete = t) (fun _ _ => complete_respond _ _) fun _ => hk _

section
variable {s : State} {hum temp : Option Word}

theorem accept_setcal (hc : s.regs.constructed = true) (ha : s.regs.devmode = .app) :
    s.accept (.setcal hum temp) =
      sendCalibration (calibrationHumidity hum s.regs) (calibrationTemperature temp s.regs) s :=
  (State.withHandle_constructed hc _ _).trans (if_pos ha)

theorem accept_setcal_noData (hc : s.regs.constructed = true) (ha : s.regs.devmode ≠ .app) :
    s.accept (.setcal hum temp) = s.raise .setcal .noData :=
  (State.withHandle_constructed hc _ _).trans (if_neg ha)

/-- R233: a raw temperature above its half is refused before anything is stored. -/
theorem exec_setcal_misfit (hc : s.regs.constructed = true) (ha : s.regs.devmode = .app)
    (hbig : 65535 < rawTemperature (calibrationTemperature temp s.regs)) :
    exec (.setcal hum temp) s = .next (s.raise .setcal
      (.invalidFieldValue (BitVec.ofInt 32 (rawTemperature (calibrationTemperature temp s.regs))))) := by
  rw [exec_eq_accept, accept_setcal hc ha, sendCalibration, if_pos hbig, State.raise_eq, complete_respond]

/-- R231: SETCAL with its checks passed is its one write, with the clamped values already stored. -/
theorem exec_setcal (hc : s.regs.constructed = true) (ha : s.regs.devmode = .app)
    (hfit : rawTemperature (calibrationTemperature temp s.regs) ≤ 65535) :
    exec (.setcal hum temp) s = .next
      (scWrite (envWord (calibrationHumidity hum s.regs) (calibrationTemperature temp s.regs))
        (s.withRegs (s.regs.withCalibration (calibrationHumidity hum s.regs)
          (calibrationTemperature temp s.regs)))) := by
  rw [exec_eq_accept, accept_setcal hc ha, sendCalibration, if_neg (not_lt_of_ge hfit), complete_scWrite]
  exact congrArg _ (State.complete_memWrite (fun _ => complete_respond _ _) _ _ _ _ _)

end

/-- Settles O52: the three refusals, and `exec_setcal` with either outcome of the write. -/
theorem setcalRule : Obligations.SetcalRule := by
  intro hum temp s h0 t0 h t word stored
  have hh : calibrationHumidity hum s.regs = h := by
    rw [calibrationHumidity_eq]
    cases hum <;> rfl
  have ht : calibrationTemperature temp s.regs = t := by
    rw [calibrationTemperature_eq]
    cases temp <;> rfl
  have hword (hfit : t + 12800 ≤ 65535) : envWord h t = word := envWord_eq h (by omega) hfit
  refine ⟨fun hc => ?unconstructed, fun hc ha => ?boot, fun hc ha hbig => ?misfit, fun hc ha hfit hok => ?done,
    fun hc ha hfit hfail => ?failed⟩
  case unconstructed =>
    rw [exec_eq_accept, State.accept, startSetcal, State.withHandle_unconstructed hc, complete_respond]
    rfl
  case boot =>
    rw [exec_eq_accept, accept_setcal_noData hc ha, State.raise_eq, complete_respond]
    rfl
  case misfit =>
    rw [exec_setcal_misfit hc ha (by rwa [ht]), ht]
    rfl
  case done =>
    rw [exec_setcal hc ha (by rwa [ht]), hh, ht, hword hfit, scWrite,
      State.memWrite_eq_wrote (s := s.withRegs (s.regs.withCalibration h t)) hok]
    rfl
  case failed =>
    rw [exec_setcal hc ha (by rwa [ht]), hh, ht, hword hfit, scWrite,
      State.memWrite_eq_writeFailed (s := s.withRegs (s.regs.withCalibration h t)) hfail]
    rfl

end Sys2Proof.Machine
end

section
/-! PROOF. GETBASE, SETBASE and DUMPSTATUS (O54, O55, O57). -/

namespace Sys2Proof.Machine

/-! ### The word reads as the statements name them (R51, R58) -/

theorem State.memRead_eq_sawHalf {s : State} (h : s.nextAnswer.ok = true) (op : Opcode) (a : Byte)
    (k : Word → State → State) : s.memRead op a .w16 k = k (wordOf s.nextAnswer .w16) (s.sawHalf a) :=
  memRead_ok h op a .w16 k

theorem State.memRead_eq_sawByte {s : State} (h : s.nextAnswer.ok = true) (op : Opcode) (a : Byte)
    (k : Word → State → State) : s.memRead op a .w8 k = k (wordOf s.nextAnswer .w8) (s.sawByte a) :=
  memRead_ok h op a .w8 k

theorem wordOf_w16_eq_ofNat (a : Answer) : wordOf a .w16 = BitVec.ofNat 32 (a.b0.toNat * 256 + a.b1.toNat) :=
  BitVec.eq_of_toNat_eq <| by
    rw [toNat_wordOf_w16, BitVec.toNat_ofNat]
    omega

theorem setWidth_wordOf_w16 (a : Answer) : (wordOf a .w16).setWidth 16 = a.b0 ++ a.b1 :=
  BitVec.setWidth_setWidth_of_le _ (by decide)

/-! ### GETBASE and SETBASE (R238, R239) -/

/-- R238: GETBASE on a handle is its one read. -/
theorem exec_getbase {s : State} (hc : s.regs.constructed = true) : exec .getbase s = .next (gbRead s) := by
  have hend : (gbRead s).complete = gbRead s :=
    State.memRead_rule (P := fun t => t.complete = t) (fun _ _ => complete_respond _ _) fun _ _ =>
      complete_respond _ _
  rw [exec_eq_accept, State.accept, startGetbase, State.withHandle_constructed hc, complete_gbRead, hend]

/-- Settles O54: no handle, or `exec_getbase` with either outcome of the read. -/
theorem getbaseRule : Obligations.GetbaseRule := by
  intro s
  refine ⟨fun hc => ?_, fun hc hfail => ?_, fun hc hok => ?_⟩
  · rw [exec_eq_accept, State.accept, startGetbase, State.withHandle_unconstructed hc, complete_respond]
    rfl
  · rw [exec_getbase hc, gbRead, State.memRead_eq_readFailed hfail]
    rfl
  · rw [exec_getbase hc, gbRead, State.memRead_eq_sawHalf hok, wordOf_w16_eq_ofNat]
    rfl

/-- R239: SETBASE on a handle is its one write. -/
theorem exec_setbase {s : State} (hc : s.regs.constructed = true) (base : Half) :
    exec (.setbase base) s = .next (sbWrite base s) := by
  rw [exec_eq_accept, State.accept, startSetbase, State.withHandle_constructed hc, complete_sbWrite]
  exact congrArg _ (State.complete_memWrite (fun _ => complete_respond _ _) _ _ _ _ _)

/-- Settles O55: no handle, or `exec_setbase` with either outcome of the write. -/
theorem setbaseRule : Obligations.SetbaseRule := by
  intro base s
  refine ⟨fun hc => ?_, fun hc hfail => ?_, fun hc hok => ?_⟩
  · rw [exec_eq_accept, State.accept, startSetbase, State.withHandle_unconstructed hc, complete_respond]
    rfl
  · rw [exec_setbase hc, sbWrite, State.memWrite_eq_writeFailed hfail]
    rfl
  · rw [exec_setbase hc, sbWrite, State.memWrite_eq_wrote hok]
    rfl

/-! ### What each read of DUMPSTATUS leads to (R246) -/

/-- Four bytes are the same word, grouped from the right as the sequencer does it or from the left. -/
theorem append_bytes (a b c d : Byte) : (a ++ (b ++ (c ++ d)) : Word) = a ++ b ++ c ++ d := by
  apply BitVec.eq_of_toNat_eq
  simp only [toNat_append_eq_add]
  omega

section
variable {s : State}

/-- R246: DUMPSTATUS on a handle begins with its status read. -/
theorem exec_dumpstatus (hc : s.regs.constructed = true) : exec .dumpstatus s = .next (dsStatus s).complete := by
  rw [exec_eq_accept, State.accept, startDumpstatus, State.withHandle_constructed hc, complete_dsStatus]

theorem complete_dsStatus_ok (hok : s.nextAnswer.ok = true) :
    (dsStatus s).complete =
      (dsBase s.nextAnswer.b0 ((s.sawByte 0x00).withRegs (s.regs.mirror s.nextAnswer.b0))).complete := by
  rw [dsStatus, State.readStatus_eq_mirror hok, complete_dsBase]

theorem complete_dsStatus_failed (hfail : s.nextAnswer.ok = false) :
    (dsStatus s).complete = (s.readFailed 0x00 .w8).respond (transportFailure 0x41 false 0x00) := by
  rw [dsStatus, State.readStatus_eq_readFailed hfail, complete_respond]
  rfl

theorem complete_dsBase_ok (hok : s.nextAnswer.ok = true) (st : Byte) :
    (dsBase st s).complete = (dsHwid st (s.nextAnswer.b0 ++ s.nextAnswer.b1) (s.sawHalf 0x11)).complete := by
  rw [dsBase, State.memRead_eq_sawHalf hok, setWidth_wordOf_w16, complete_dsHwid]
  rfl

theorem complete_dsBase_failed (hfail : s.nextAnswer.ok = false) (st : Byte) :
    (dsBase st s).complete = (s.readFailed 0x11 .w16).respond (transportFailure 0x41 false 0x11) := by
  rw [dsBase, State.memRead_eq_readFailed hfail, complete_respond]
  rfl

theorem complete_dsHwid_ok (hok : s.nextAnswer.ok = true) (st hi lo : Byte) :
    (dsHwid st (hi ++ lo) s).complete =
      (s.sawByte 0x20).respond (okWith 0x41 (st ++ s.nextAnswer.b0 ++ hi ++ lo) (cachedError s.regs)) := by
  rw [dsHwid, State.memRead_eq_sawByte hok, setWidth_wordOf_w8, ← append_bytes]
  exact complete_respond _ _

theorem complete_dsHwid_failed (hfail : s.nextAnswer.ok = false) (st : Byte) (base : Half) :
    (dsHwid st base s).complete = (s.readFailed 0x20 .w8).respond (transportFailure 0x41 false 0x20) := by
  rw [dsHwid, State.memRead_eq_readFailed hfail, complete_respond]
  rfl

end

/-! ### DUMPSTATUS (R246) -/

/-- R246: with a valid cache the flag stands above the error byte. -/
theorem cachedError_eq (r : Regs) :
    cachedError r = if r.cacheValid then BitVec.ofNat 32 (256 + r.cacheBytes.b5.toNat) else 0 := by
  unfold cachedError
  split
  case isTrue =>
    apply BitVec.eq_of_toNat_eq
    rw [BitVec.toNat_setWidth, toNat_append_eq_add, BitVec.toNat_ofNat]
    rfl
  case isFalse => rfl

/-- Settles O57: the reads one after the other, the first failed one answering. -/
theorem dumpstatusRule : Obligations.DumpstatusRule := by
  intro s seen based
  refine ⟨fun hc => ?unconstructed, fun hc hfail => ?status, fun hc hok hfail => ?base, fun hc hok hok' hfail => ?hwid,
    fun hc hok hok' hok'' => ?done⟩
  case unconstructed =>
    rw [exec_eq_accept, State.accept, startDumpstatus, State.withHandle_unconstructed hc, complete_respond]
    rfl
  case status => rw [exec_dumpstatus hc, complete_dsStatus_failed hfail]
  case base => rw [exec_dumpstatus hc, complete_dsStatus_ok hok, complete_dsBase_failed hfail]
  case hwid =>
    rw [exec_dumpstatus hc, complete_dsStatus_ok hok, complete_dsBase_ok hok', complete_dsHwid_failed hfail]
  case done =>
    rw [exec_dumpstatus hc, complete_dsStatus_ok hok, complete_dsBase_ok hok', complete_dsHwid_ok hok'',
      cachedError_eq]
    rfl

end Sys2Proof.Machine
end

section
/-! PROOF. DECODEERR and the error flags (O56). -/

namespace Sys2Proof.Machine

/-! ### The flag vector and the flags (R242) -/

theorem toNat_flagVector (e : Byte) : (flagVector e).toNat = e.toNat / 4 := by
  rw [flagVector, BitVec.extractLsb'_toNat, Nat.shiftRight_eq_div_pow]
  omega

theorem ErrorFlag.mem_all (f : ErrorFlag) : f ∈ ErrorFlag.all := by cases f <;> decide

theorem mem_errorFlags_iff (f : ErrorFlag) (e : Byte) : f ∈ errorFlags e ↔ e.getLsbD f.bit = true := by
  simp [errorFlags, f.mem_all]

theorem getLsbD_flagVector {i : Nat} (hi : i < 6) (e : Byte) : (flagVector e).getLsbD i = e.getLsbD (2 + i) := by
  simp [flagVector, hi]

/-- R242: every bit of the flag vector is a flag. -/
theorem ErrorFlag.exists_bit_eq {i : Nat} (hi : i < 6) : ∃ f : ErrorFlag, f.bit = 2 + i := by
  interval_cases i
  exacts [⟨.heaterSupply, rfl⟩, ⟨.heaterFault, rfl⟩, ⟨.maxResistance, rfl⟩, ⟨.modeInvalid, rfl⟩, ⟨.readInvalid, rfl⟩,
    ⟨.writeInvalid, rfl⟩]

/-- R242: a flag is in the set exactly where its bit of the flag vector is set. -/
theorem mem_errorFlags_iff_flagVector {f : ErrorFlag} {i : Nat} (hf : f.bit = 2 + i) (hi : i < 6) (e : Byte) :
    f ∈ errorFlags e ↔ (flagVector e).getLsbD i = true := by
  rw [mem_errorFlags_iff, getLsbD_flagVector hi, hf]

/-- R242: the set of flags determines the flag vector, bit by bit. -/
theorem flagVector_eq_of_errorFlags_eq {e e' : Byte} (h : errorFlags e = errorFlags e') :
    flagVector e = flagVector e' := by
  refine BitVec.eq_of_getLsbD_eq fun i hi => Bool.eq_iff_iff.mpr ?_
  obtain ⟨f, hf⟩ := ErrorFlag.exists_bit_eq hi
  rw [← mem_errorFlags_iff_flagVector hf hi, ← mem_errorFlags_iff_flagVector hf hi, h]

/-! ### DECODEERR (R242) -/

/-- R242: DECODEERR answers in the transition out of IDLE. -/
theorem exec_decodeerr (e : Byte) (s : State) :
    exec (.decodeerr e) s = .next (s.respond (okWith 0x40 ((flagVector e).setWidth 32) 0)) :=
  congrArg Host.Outcome.next (complete_respond _ _)

/-- Settles O56: the answer, then the flags by `mem_errorFlags_iff_flagVector`. -/
theorem decodeerrRule : Obligations.DecodeerrRule := by
  refine ⟨fun e s => ?answer, fun e => ⟨rfl, ?flags⟩, fun e => List.filter_sublist,
    fun e e' => flagVector_eq_of_errorFlags_eq⟩
  case answer => rw [exec_decodeerr, ← toNat_flagVector, BitVec.ofNat_toNat]
  case flags =>
    have hbit {f : ErrorFlag} {i : Nat} (hf : f.bit = 2 + i) (hi : i < 6) :=
      mem_errorFlags_iff_flagVector hf hi e
    exact ⟨hbit rfl (by decide), hbit rfl (by decide), hbit rfl (by decide), hbit rfl (by decide),
      hbit rfl (by decide), hbit rfl (by decide)⟩

end Sys2Proof.Machine
end

section
/-! PROOF. The refusals that change nothing: a word the decoder refuses (O4), and a handle command without a handle
(O21). -/

namespace Sys2Proof.Machine

/-- Settles O4: a refused word is no command's, so `step_refuses` applies. -/
theorem illegalCommandChangesNothing : Obligations.IllegalCommandChangesNothing := by
  intro s w rest e hp hi he
  refine step_refuses hp hi fun i hw => ?_
  cases he.symm.trans hw

/-! ### Handle commands (R266) -/

/-- R266: without a handle the acceptance of a handle command is its refusal, before any other check. -/
theorem accept_unconstructed {i : Instr} {s : State} (h : needsHandle i = true) (hc : s.regs.constructed = false) :
    s.accept i = s.respond (bare .notConstructed i.opcode.byte) := by
  cases i with
  | rdfield _ | wrfield _ _ | init _ _ | swreset | decodeerr _ => cases h
  | _ => exact State.withHandle_unconstructed hc _ _

theorem exec_unconstructed {i : Instr} {s : State} (h : needsHandle i = true) (hc : s.regs.constructed = false) :
    exec i s = .next (s.respond (bare .notConstructed i.opcode.byte)) := by
  rw [exec_eq_accept, accept_unconstructed h hc, complete_respond]

/-- R266: the nine listed opcodes are those of handle commands. -/
theorem needsHandle_of_mem {i : Instr}
    (h : i.opcode ∈
      [Opcode.setmode, .pollrdy, .rdresult, .rdeco2, .rdetvoc, .setcal, .getbase, .setbase, .dumpstatus]) :
    needsHandle i = true := by
  cases i with
  | rdfield _ | wrfield _ _ | init _ _ | swreset | decodeerr _ => simp [Instr.opcode] at h
  | _ => rfl

/-- R266, R274: the other five have no NotConstructed among their statuses. -/
theorem notConstructed_not_mem_statuses :
    ∀ o ∈ [Opcode.rdfield, .wrfield, .init, .swreset, .decodeerr], Status.notConstructed ∉ o.statuses := by
  decide

/-- Settles O21: `exec_unconstructed`; and the one response of a command has a status of its row, which for the other
five is never NotConstructed. -/
theorem handleCommandsNeedConstruction : Obligations.HandleCommandsNeedConstruction := by
  refine ⟨fun i s hi hc => exec_unconstructed (needsHandle_of_mem hi) hc, fun i s t hi ht r hr hstatus => ?_⟩
  obtain ⟨t', r', ht', -, hr', -, hallowed, -⟩ := everyCommandAnswersOnce i s
  obtain rfl : t' = t := Host.Outcome.next.inj (ht'.symm.trans ht)
  obtain rfl : r' = r := by simpa using hr'.symm.trans hr
  rw [hstatus, allowedStatuses_eq] at hallowed
  exact notConstructed_not_mem_statuses _ hi hallowed

end Sys2Proof.Machine
end

section
/-! PROOF. The reset input (O11). -/

namespace Sys2Proof.Machine

/-- R300: the pulse gives the registers, all of them, the values they have at reset (R34). -/
theorem State.hostReset_regs (s : State) : s.hostReset.regs = State.reset.regs := rfl

/-- Log entry 14: the pulse leaves the partners' side, what has been issued and answered, and the time as they are. -/
theorem State.hostReset_frame (s : State) :
    s.hostReset.trace = s.trace ∧ s.hostReset.responses = s.responses ∧ s.hostReset.inputs = s.inputs ∧
      s.hostReset.observed = s.observed ∧ s.hostReset.answers = s.answers ∧ s.hostReset.draws = s.draws ∧
      s.hostReset.now = s.now :=
  ⟨rfl, rfl, rfl, rfl, rfl, rfl, rfl⟩

/-- Settles O11: the step is `step_reset`, at any `pc`; the registers are those of `resetRegisterValues`, and the rest
is the frame of the pulse. -/
theorem resetInputResets : Obligations.ResetInputResets := by
  intro s rest hi
  obtain ⟨-, hvalues⟩ := resetRegisterValues
  rw [← State.hostReset_regs (s.withInputs rest)] at hvalues
  obtain ⟨hconstructed, hdevmode, hmeas, htimeout, hcache, hhum, htemp⟩ := hvalues
  exact ⟨(s.withInputs rest).hostReset, step_reset hi, rfl, hconstructed, hdevmode, hmeas, htimeout, hcache, hhum,
    htemp, State.hostReset_frame (s.withInputs rest)⟩

end Sys2Proof.Machine
end
